-- ==== Sys2Proof/Word.lean ====
section
/-! DEFINITION. The words of the part: bytes and 128-bit ids (R1, R57, R79). Quantities the spec counts
with are Nat; what it treats as bits is a BitVec. -/

namespace Sys2Proof

/-- One byte of a cell, a unit or a message (R57). -/
abbrev Byte := BitVec 8

/-- A 128-bit name or key: composition id (R1), key id and content key (R79). -/
abbrev Id128 := BitVec 128

/-- A mask of eight flags or lines, bit k for number k (R20, R175). -/
abbrev Mask8 := BitVec 8

end Sys2Proof
end

