-- ==== Sys2Proof/Syntax.lean ====
section
/-! DEFINITION. The commands of the VB620: one constructor of `Instr` per row of spec/opcode_table.json. -/

namespace Sys2Proof

/-- A cell as the inbound lane delivers it: 14 header bytes and the payload bytes (R40, R57). -/
structure Cell where
  header : Vector Byte 14
  payload : List Byte
deriving DecidableEq, Repr

/-- The part's commands. A cell command carries the cell. A request command performs the request at the head
of the request queue, where its parameters stand (R173), so it carries none. `lineMillisecond` carries the
levels of the eight input pins (bit k high: pin k high, R148); `spanEnd` and `inputEdge` carry the line. -/
inductive Instr where
  -- cells arriving on the inbound lane
  | fill (c : Cell)
  | essence (c : Cell)
  | resource (c : Cell)
  | manage (c : Cell)
  -- requests performed at the head of the request queue
  | badKind
  | readStatus
  | setClock
  | loadKey
  | eraseKey
  | readKey
  | writeEntry
  | readEntry
  | clearList
  | writeCue
  | readCue
  | writeProfile
  | readProfile
  | writeFaderLaw
  | setFader
  | setMute
  | configureOutputLine
  | configureInputLine
  | lineActionSet
  | lineActionClear
  | lineActionToggle
  | lineActionTrigger
  | lineActionStop
  | readLine
  | readCapture
  | cueShow
  | go
  | pause
  | resume
  | stop
  | setFlags
  | setLimits
  | readShowing
  | readLog
  | markCollected
  | setReportMask
  | reset
  -- events of media time
  | unitBoundary
  | leadEnd
  | starved
  | sampleInstant
  | byteTime
  -- events of booth time
  | dividerStep
  | pauseTimeout
  | boothSecond
  | laneDown
  | lineMillisecond (pins : Mask8)
  | spanEnd (line : Nat)
  | inputEdge (input : Nat)
  -- the unpacking engine
  | unpackingEngineTake
  | unpackComplete
  | unpackAbandon
  -- the return lane
  | cellSendStart
  | cellSendEnd
  -- the supplies and the start of the part
  | coldStart
  | warmStart
  | mainPowerLoss
  | invalidCell (c : Cell)
  | backupSupplyLoss
deriving DecidableEq, Repr

end Sys2Proof
end

