-- ==== Sys2Proof/Config.lean ====
section
/-! DEFINITION. What is fixed in every part: the two functions whose internals the manual does not define, the
device key and wrap check constant (opaque, so that nothing can lean on a value of theirs), and the stated
constants of the part. -/

namespace Sys2Proof.Config

/-- The content cipher of R68: content key and counter block to keystream block. "this manual does not define
its internals" (assumption log 10). A 16-byte block is read with its byte 0 most significant. -/
opaque contentCipher : (key block : BitVec 128) → BitVec 128

/-- The key-wrap function of R83: device key and 48-byte blob to 48 bytes. Its internals are not defined
(assumption log 11). Byte 0 is most significant. -/
opaque keyWrap : (deviceKey : Nat) → BitVec 384 → BitVec 384

/-- The device key of R83, fixed at manufacture and not readable. Its width is not stated. -/
opaque deviceKey : Nat

/-- The wrap check constant of R83, fixed at manufacture and not readable. -/
opaque wrapCheck : BitVec 32

/-- Part code and revision (R178, R191). -/
def partCode : Nat := 620
def revision : Nat := 1

/-- Text store capacity (R119). -/
def storeEntries : Nat := 512
def storeBytes : Nat := 8388608

/-- Caption ring capacity (R133). -/
def captionRing : Nat := 1024

/-- Delay ring length (R116). -/
def ringLength : Nat := 32768

/-- Capacities of the request queue (R172), reply list (R173), report queue (R186) and showing log (R167). -/
def requestPlaces : Nat := 8
def replyPlaces : Nat := 16
def reportPlaces : Nat := 32
def logPlaces : Nat := 256

end Sys2Proof.Config
end

