-- ==== Sys2Proof/Machine/State.lean ====
section
/-! DEFINITION. The state of the VB620 as plain data: every table, queue, register and flag the spec names, in
the blocks of 00_scope.md, with `State.reset`, the state the cold start leaves (R191). Fixed banks are Vectors,
queues are Lists, quantities are Nat. -/

namespace Sys2Proof.Machine

/-! ### Show list entries (R1) and the segment context (R11) -/

inductive SegClass where
  | empty | preshow | advert | trailer | intermission | feature | exit
deriving DecidableEq, Repr, Inhabited

inductive EditRate where
  | r24 | r25 | r30 | r48 | r50 | r60
deriving DecidableEq, Repr, Inhabited

inductive SampleRate where
  | r48k | r96k
deriving DecidableEq, Repr, Inhabited

/-- A condition of R9: ALWAYS, or a flag 0-7 with the sense SET (`true`) or CLEAR. -/
inductive Condition where
  | always
  | flag (k : Nat) (sense : Bool)
deriving DecidableEq, Repr, Inhabited

/-- The fields of a show list entry that its segment context copies (R11). -/
structure Segment where
  cls : SegClass
  composition : Id128
  reel : Nat
  rate : EditRate
  stereo : Bool
  srate : SampleRate
  entryPoint : Nat
  duration : Nat
  isProtected : Bool
  leadGap : Nat
  hold : Bool
  fadeIn : Nat
  fadeOut : Nat
  profile : Nat
  subtitles : Bool
  captions : Bool
  cueFirst : Nat
  cueCount : Nat
  countPoint : Option Nat
deriving DecidableEq, Repr, Inhabited

/-- A show list entry (R1). `dueAlternate` is the due member: ALTERNATE when set, THIS when clear. -/
structure Entry extends Segment where
  cond : Condition
  alternate : Option Nat
  altOnly : Bool
  dueAlternate : Bool
  generation : Nat
deriving DecidableEq, Repr, Inhabited

/-- The defaults of R1: what an EMPTY entry reads as, with the generation it keeps. -/
def Entry.emptied (generation : Nat) : Entry where
  cls := .empty
  composition := 0
  reel := 0
  rate := .r24
  stereo := false
  srate := .r48k
  entryPoint := 0
  duration := 1
  isProtected := false
  leadGap := 0
  hold := false
  fadeIn := 0
  fadeOut := 0
  profile := 0
  subtitles := false
  captions := false
  cueFirst := 0
  cueCount := 0
  countPoint := none
  cond := .always
  alternate := none
  altOnly := false
  dueAlternate := false
  generation := generation

/-- The segment context (R11). `other` is the model's own: the member of the selected pair that is not played,
absent where no pair was selected (R10, R29). `holdPending` says whether the hold remains to be satisfied. -/
structure Context where
  played : Nat
  principal : Nat
  other : Option Nat
  segment : Segment
  condition : Bool
  leadUnits : Nat
  holdPending : Bool
deriving DecidableEq, Repr, Inhabited

/-! ### The Sequencer (R5, R26, R35) -/

inductive SeqState where
  | idle | cued | hold | lead | playing | paused
deriving DecidableEq, Repr, Inhabited

/-- The cause of a pause (R5): OPERATOR 0, STARVED 1 (R187). -/
inductive PauseCause where
  | operator | starved
deriving DecidableEq, Repr, Inhabited

/-- The end causes of R158, in their code order. -/
inductive EndCause where
  | complete | stopped | pauseTimeout | cancelled | reset | interrupted
deriving DecidableEq, Repr, Inhabited

/-- The pending controls (R5). -/
structure PendingControls where
  stop : Bool
  go : Bool
  pause : Option PauseCause
  resume : Bool
  timeout : Bool
deriving DecidableEq, Repr, Inhabited

def PendingControls.none : PendingControls :=
  { stop := false, go := false, pause := Option.none, resume := false, timeout := false }

structure Sequencer where
  state : SeqState
  ctx : Option Context
  seg : Nat
  offset : Nat
  leadRemaining : Nat
  pend : PendingControls
  /-- `some .lead` or `some .playing` while PAUSED -/
  pausedFrom : Option SeqState
  pauseCause : Option PauseCause
  pauseSteps : Nat
  starvation : Nat
  held : Mask8
  flags : Mask8
  clockRunning : Bool
  ticksPerUnit : Nat
  tickCount : Nat
  showingTime : Nat
  pauseLimit : Nat
  starveLimit : Nat
deriving DecidableEq, Repr, Inhabited

/-! ### Link Receiver and Track Assembler (R42 to R52) -/

/-- The causes of R63, in their code order. -/
inductive Cause where
  | none | missing | notReady | incomplete | truncated | overlong | keyAbsent | keyUnbound | keyMismatch
  | plainRefused | keyUnexpected | checkFail | format
deriving DecidableEq, Repr, Inhabited

/-- The defect of a unit (R45). -/
inductive Defect where
  | incomplete | truncated | overlong
deriving DecidableEq, Repr, Inhabited

/-- The unit states of R62. -/
inductive UnitState where
  | assembling | waiting | unpacking | ready
  | failed (c : Cause)
deriving DecidableEq, Repr, Inhabited

inductive Assembly where
  | vacant | opened | skipping
deriving DecidableEq, Repr, Inhabited

/-- The eight link counters, in the order of R43. -/
structure LinkCounters where
  headerErrors : Nat
  gaps : Nat
  orphans : Nat
  overruns : Nat
  truncated : Nat
  overlong : Nat
  late : Nat
  refused : Nat
deriving DecidableEq, Repr, Inhabited

def LinkCounters.zero : LinkCounters := ⟨0, 0, 0, 0, 0, 0, 0, 0⟩

structure LinkReceiver where
  laneUp : Bool
  laneTimer : Nat
  counters : LinkCounters
  errorArmed : Bool
deriving DecidableEq, Repr, Inhabited

/-- What a sound unit was checked against (R71). -/
structure SoundAttrs where
  srate : SampleRate
  samplesPerUnit : Nat
  channels : Nat
deriving DecidableEq, Repr, Inhabited

/-- The check attributes of R71. -/
structure CheckAttrs where
  isProtected : Bool
  composition : Option Id128
  licence : Option Nat
  sound : Option SoundAttrs
deriving DecidableEq, Repr, Inhabited

/-- A unit record of a track queue (R52). `overlong` is the model's own mark that R49 has stopped storing;
`content` is what the unit's buffer holds: the bytes received, and the plaintext once READY (R66). -/
structure UnitRec where
  seg : Nat
  unit : Nat
  state : UnitState
  defect : Option Defect
  overlong : Bool
  storedLen : Nat
  content : List Byte
  attrs : Option CheckAttrs
deriving DecidableEq, Repr, Inhabited

/-- One track slot: expected sequence number (NONE or a value, R44) and assembly state (R46). -/
structure TrackSlot where
  expected : Option Nat
  assembly : Assembly
deriving DecidableEq, Repr, Inhabited

/-- The six slots in slot order, and the track queues of P0, P1, S0 and S1. -/
structure TrackAssembler where
  slots : Vector TrackSlot 6
  queues : Vector (List UnitRec) 4
deriving DecidableEq, Repr, Inhabited

/-- The unit the unpacking engine works on (R64 to R67): which unit, the attributes read at the take, the first
failed check found then, the content key and licence slot found, and whether the unit has been discarded and
the engine is to abandon it (R65). `heldBytes` is the store room a freed resource still holds. -/
structure UnpackJob where
  slot : Nat
  seg : Nat
  unit : Nat
  abandoned : Bool
  heldBytes : Nat
  verdict : Option Cause
  key : Option (Nat × Id128)
  isProtected : Bool
  composition : Id128
  rate : EditRate
  srate : SampleRate
deriving DecidableEq, Repr, Inhabited

/-! ### Licence Table and booth clock (R79, R94) -/

inductive LicState where
  | empty | loaded | bound | spent | lapsed
deriving DecidableEq, Repr, Inhabited

/-- A set of kinds (R79, R175): bit 0 picture, bit 1 sound, bit 2 text. -/
structure Kinds where
  picture : Bool
  sound : Bool
  text : Bool
deriving DecidableEq, Repr, Inhabited

structure Licence where
  state : LicState
  keyId : Id128
  composition : Id128
  kinds : Kinds
  contentKey : Id128
  windowStart : Nat
  windowEnd : Nat
  permitted : Nat
  counted : Nat
  lastCounted : Nat
  generation : Nat
deriving DecidableEq, Repr, Inhabited

/-- An EMPTY entry (R79), with the generation it keeps. -/
def Licence.emptied (generation : Nat) : Licence where
  state := .empty
  keyId := 0
  composition := 0
  kinds := ⟨false, false, false⟩
  contentKey := 0
  windowStart := 0
  windowEnd := 0
  permitted := 0
  counted := 0
  lastCounted := 0
  generation := generation

/-- The booth clock (R94), and a booth time stamp: set bit, seconds (0 while UNSET) and fraction. -/
structure BoothTime where
  isSet : Bool
  seconds : Nat
  fraction : Nat
deriving DecidableEq, Repr, Inhabited

/-! ### Picture Port (R75 to R77) -/

inductive Eye where
  | mono | left | right
deriving DecidableEq, Repr, Inhabited

/-- What a picture record carries (R75). -/
inductive Content where
  | unit (plaintext : List Byte)
  | held (plaintext : List Byte)
  | black
deriving DecidableEq, Repr, Inhabited

/-- One entry of an overlay list with the image data that goes with it (R132). -/
structure Overlay where
  region : Nat
  lineOffset : Nat
  image : Nat
  opacity : Nat
  data : List Byte
deriving DecidableEq, Repr, Inhabited

/-- A picture record (R75). `source` is segment index and reel unit number. -/
structure PictureRecord where
  eye : Eye
  showing : Nat
  seg : Nat
  offset : Nat
  content : Content
  source : Option (Nat × Nat)
  concealed : Bool
  cause : Cause
  overlays : List Overlay
deriving DecidableEq, Repr, Inhabited

/-- A last good unit: its plaintext and position (R76). -/
structure GoodUnit where
  seg : Nat
  unit : Nat
  plaintext : List Byte
deriving DecidableEq, Repr, Inhabited

/-- `concealed` holds the last outcome of P0, P1, S0, S1 (R77): CONCEALED when set. `records` are the picture
records of the unit in progress (assumption log 27). -/
structure PicturePort where
  left : Option GoodUnit
  right : Option GoodUnit
  concealed : Vector Bool 4
  records : List PictureRecord
deriving DecidableEq, Repr, Inhabited

/-! ### Sound Engine (R98 to R118) -/

inductive Route where
  | none
  | main (c : Nat)
  | narration (c : Nat)
deriving DecidableEq, Repr, Inhabited

structure Profile where
  routes : Vector Route 18
  trims : Vector Nat 18
  syncDelay : Nat
  generation : Nat
deriving DecidableEq, Repr, Inhabited

/-- The default profile of R101. -/
def Profile.default : Profile where
  routes := ⟨#[.main 0, .main 1, .main 2, .main 3, .main 4, .main 5, .main 6, .main 7, .main 8, .main 9,
    .main 10, .main 11, .main 12, .main 13, .main 14, .main 15, .narration 0, .narration 1], rfl⟩
  trims := Vector.replicate 18 16384
  syncDelay := 0
  generation := 0

/-- The default fader law of R105 at position p. -/
def defaultLawGain (p : Nat) : Nat :=
  if p ≤ 70 then 16384 * p / 70 else 16384 + 16384 * (p - 70) / 30

def defaultLaw : Vector Nat 101 := ⟨((List.range 101).map defaultLawGain).toArray, by simp⟩

/-- A play store (R99): channel count, and all channels of sample 0, then of sample 1, and so on (R58). -/
structure PlayStore where
  channels : Nat
  samplesPerUnit : Nat
  samples : List Int
deriving DecidableEq, Repr, Inhabited

/-- S0 or S1 in the Sound Engine: play store, and whether the slot is SOUNDING in the unit in progress and was
in the unit before (R99, R109). -/
structure SoundSlot where
  store : Option PlayStore
  before : Bool
  now : Bool
deriving DecidableEq, Repr, Inhabited

/-- A delay ring of 32,768 samples (R116) as the samples that are not 0, in ascending place: the one canonical
form of `DelayRing.wf` (assumption log 25). -/
abbrev DelayRing := List (Nat × Int)

structure SoundEngine where
  profiles : Vector Profile 8
  law : Vector Nat 101
  fader : Nat
  mute : Bool
  master : Nat
  trims : Vector Nat 18
  inForce : Nat
  working : Profile
  pendingSel : Option Nat
  rate : SampleRate
  delay : Nat
  rings : Vector DelayRing 18
  writeIndex : Nat
  s0 : SoundSlot
  s1 : SoundSlot
  /-- number of the next sample instant in the unit in progress (R98); 0 while the unit clock is stopped -/
  instant : Nat
  /-- sample instants since the slot statuses last changed, stopping at 64 (R109) -/
  rampCount : Nat
  /-- the old route of each output in a route switch, and the instants since it began (R104) -/
  oldRoutes : Vector (Option Route) 18
  switchCount : Nat
  heldFade : Nat
  clipReported : Bool
  /-- the 18 samples last sent (assumption log 27) -/
  out : Vector Int 18
deriving DecidableEq, Repr, Inhabited

/-! ### Text Engine and Caption Line (R119 to R140) -/

inductive ResKind where
  | cueList | image | captionList
deriving DecidableEq, Repr, Inhabited

/-- A resource (R119); `slot` is 4 for T0 and 5 for T1. It shows ARRIVING while its unit state is ASSEMBLING,
WAITING or UNPACKING (R62). `attrs` are the check attributes it holds from READY on (R71). -/
structure Resource where
  seg : Nat
  slot : Nat
  id : Nat
  kind : Option ResKind
  storedLen : Nat
  state : UnitState
  defect : Option Defect
  overlong : Bool
  content : List Byte
  attrs : Option CheckAttrs
deriving DecidableEq, Repr, Inhabited

/-- A cue of a cue table (R124). `image` is used by T0, `text` by T1. -/
structure Cue where
  number : Nat
  inPoint : Nat
  outPoint : Nat
  fadeIn : Nat
  fadeOut : Nat
  opacity : Nat
  region : Nat
  lineOffset : Nat
  image : Nat
  text : List Byte
deriving DecidableEq, Repr, Inhabited

/-- A cue table with its pending-cue comparator (the place of the next cue, or no cue) and loaded flag (R125). -/
structure CueTable where
  cues : List Cue
  comparator : Option Nat
  loaded : Bool
deriving DecidableEq, Repr, Inhabited

def CueTable.cleared : CueTable := ⟨[], none, false⟩

/-- A cue in a display slot (R127) or in the caption display list (R136). -/
structure Displayed where
  cue : Cue
  shown : Bool
  withdrawn : Bool
deriving DecidableEq, Repr, Inhabited

structure TextEngine where
  store : List Resource
  t0 : CueTable
  t1 : CueTable
  display : Vector (Option Displayed) 4
  captions : List Displayed
deriving DecidableEq, Repr, Inhabited

/-- The transmit ring, oldest byte first, and the byte the line is sending (R133). -/
structure CaptionLine where
  ring : List Byte
  sending : Option Byte
deriving DecidableEq, Repr, Inhabited

/-! ### Line Controller (R141 to R152) -/

inductive LineMode where
  | off | level | pulse | train
deriving DecidableEq, Repr, Inhabited

inductive Activity where
  | idle | delaying | on | off
deriving DecidableEq, Repr, Inhabited

inductive LineAct where
  | set | clear | toggle | trigger | stop
deriving DecidableEq, Repr, Inhabited

/-- An output line's configuration (R142); the gate is an input line with its stop level (ACTIVE when set). -/
structure OutConfig where
  mode : LineMode
  activeLow : Bool
  delay : Nat
  width : Nat
  count : Nat
  onTime : Nat
  offTime : Nat
  gate : Option (Nat × Bool)
deriving DecidableEq, Repr, Inhabited

def OutConfig.default : OutConfig := ⟨.off, false, 0, 1, 1, 1, 1, none⟩

structure OutLine where
  config : OutConfig
  active : Bool
  activity : Activity
  spanRemaining : Nat
  pulsesDone : Nat
  busyTriggers : Nat
deriving DecidableEq, Repr, Inhabited

inductive EdgeSetting where
  | none | rising | falling | both
deriving DecidableEq, Repr, Inhabited

/-- The action of an input line (R148). -/
inductive InAction where
  | none | go | pause | resume | stop
  | flag (set clear toggle : Mask8)
  | report
deriving DecidableEq, Repr, Inhabited

structure InConfig where
  activeLow : Bool
  edge : EdgeSetting
  debounce : Nat
  action : InAction
  held : Bool
deriving DecidableEq, Repr, Inhabited

def InConfig.default : InConfig := ⟨false, .none, 0, .none, false⟩

/-- What a capture record holds (R151). -/
structure Capture where
  rising : Bool
  level : Bool
  state : SeqState
  showing : Nat
  seg : Nat
  offset : Nat
  time : BoothTime
deriving DecidableEq, Repr, Inhabited

/-- An input line (R148) with its capture record (R151). `pinHigh` is the pin as last sampled. -/
structure InLine where
  config : InConfig
  pinHigh : Bool
  accepted : Bool
  stable : Nat
  capture : Option Capture
  unread : Bool
  overwritten : Bool
deriving DecidableEq, Repr, Inhabited

/-- `msNumber` is the number of the next line millisecond in its run of 1,000 (R141). -/
structure LineController where
  outputs : Vector OutLine 8
  inputs : Vector InLine 8
  msNumber : Nat
deriving DecidableEq, Repr, Inhabited

/-! ### Automation Cue Table (R153) -/

inductive Anchor where
  | none
  | start (e : Nat)
  | finish (e : Nat)
  | lead | onPause | onResume | onStop | onShowEnd
deriving DecidableEq, Repr, Inhabited

inductive CueAction where
  | line (line : Nat) (act : LineAct)
  | flag (set clear toggle : Mask8)
  | mark (value : Nat)
  | sound (profile : Nat)
deriving DecidableEq, Repr, Inhabited

structure AutoCue where
  anchor : Anchor
  cond : Condition
  action : CueAction
  generation : Nat
deriving DecidableEq, Repr, Inhabited

def AutoCue.default : AutoCue := ⟨.none, .always, .mark 0, 0⟩

/-! ### Showing Recorder (R158 to R169) -/

inductive ResultOutcome where
  | inProgress | played | skipped | cutShort | unreached
deriving DecidableEq, Repr, Inhabited

/-- A segment result (R159). `feature` is the composition the Recorder keeps with the result of a FEATURE for
the log record (R168). -/
structure SegResult where
  index : Nat
  outcome : ResultOutcome
  unitsOutput : Nat
  pictureConcealed : Nat
  soundConcealed : Nat
  cuesShown : Nat
  feature : Option Id128
deriving DecidableEq, Repr, Inhabited

inductive RecordStatus where
  | none | opened | closed
deriving DecidableEq, Repr, Inhabited

/-- The current showing record (R158). `lastPrincipal` is the principal index of the last segment selected,
which the close needs (R165, assumption log 32). -/
structure ShowRecord where
  number : Nat
  cueTime : BoothTime
  startTime : Option BoothTime
  results : List SegResult
  bound : List Nat
  counted : Bool
  countTime : Option BoothTime
  countedLicences : List (Nat × Id128)
  pauses : Nat
  pausedTime : Nat
  clips : Nat
  cuesDropped : Nat
  badCues : Nat
  missing : Nat
  endTime : Option BoothTime
  endCause : Option EndCause
  lastPrincipal : Nat
deriving DecidableEq, Repr, Inhabited

/-- A record with no figure in it yet. -/
def ShowRecord.fresh (number : Nat) (cueTime : BoothTime) (bound : List Nat) : ShowRecord where
  number := number
  cueTime := cueTime
  startTime := none
  results := []
  bound := bound
  counted := false
  countTime := none
  countedLicences := []
  pauses := 0
  pausedTime := 0
  clips := 0
  cuesDropped := 0
  badCues := 0
  missing := 0
  endTime := none
  endCause := none
  lastPrincipal := 0

/-- A log record (R168). -/
structure LogRecord where
  number : Nat
  startTime : Option BoothTime
  endTime : Option BoothTime
  endCause : EndCause
  counted : Bool
  countTime : Option BoothTime
  feature : Option Id128
  keyIds : List Id128
  more : Bool
  unitsOutput : Nat
  pictureConcealed : Nat
  soundConcealed : Nat
  cuesDropped : Nat
  clips : Nat
  collected : Bool
deriving DecidableEq, Repr, Inhabited

structure Recorder where
  nextNumber : Nat
  status : RecordStatus
  record : ShowRecord
  log : List LogRecord
  overwrites : Nat
  halfArmed : Bool
  fullArmed : Bool
deriving DecidableEq, Repr, Inhabited

/-! ### Management Unit, Report Unit, Return Lane Transmitter (R172, R173, R186 to R192) -/

/-- The outcome codes of R59, in their code order. -/
inductive ReplyOutcome where
  | ok | queueFull | badKind | badParam | noSuchIndex | stale | inUse | state | tableFull | duplicate | badWrap
  | bound | clockUnset | clockBackward | licence | badShow | held
deriving DecidableEq, Repr, Inhabited

/-- A request as its MANAGE cell carried it (R59). -/
structure Request where
  tag : Nat
  kind : Nat
  params : List Byte
deriving DecidableEq, Repr, Inhabited

/-- A reply (R59). -/
structure Reply where
  tag : Nat
  kind : Nat
  outcome : ReplyOutcome
  data : List Byte
deriving DecidableEq, Repr, Inhabited

structure Management where
  queue : List Request
  replies : List Reply
  lost : Nat
deriving DecidableEq, Repr, Inhabited

/-- The report kinds of R187, in their code order. -/
inductive ReportKind where
  | showState | segmentStart | segmentEnd | counted | showingEnd | conceal | starved | lineEdge | mark
  | licenceState | logHalf | logFull | logOverwrite | linkState | linkError | clip | captionTruncated
  | cueDropped | resourceLate | resourceDropped | startCold | startWarm | reportsLost
deriving DecidableEq, Repr, Inhabited

/-- A report entry (R186). -/
structure Report where
  kind : ReportKind
  time : BoothTime
  showing : Nat
  seg : Nat
  offset : Nat
  detail1 : Nat
  detail2 : Nat
deriving DecidableEq, Repr, Inhabited

structure ReportUnit where
  queue : List Report
  mask : BitVec 32
  lost : Nat
deriving DecidableEq, Repr, Inhabited

/-- The report mask with every kind on: bits 0-22 (R188). -/
def ReportUnit.fullMask : BitVec 32 := 0x007FFFFF#32

/-- The figures of a PACE cell (R55, R60). -/
structure Pace where
  state : SeqState
  seg : Nat
  offset : Nat
  showing : Nat
  freeP0 : Nat
  freeP1 : Nat
  freeS0 : Nat
  freeS1 : Nat
  freeEntries : Nat
  freeBytes : Nat
deriving DecidableEq, Repr, Inhabited

structure ReturnLane where
  pace : Option Pace
  sending : Option Cell
  sequence : Nat
deriving DecidableEq, Repr

/-- The supplies and the retained-valid flag (R191). -/
structure Supplies where
  main : Bool
  backup : Bool
  retainedValid : Bool
deriving DecidableEq, Repr, Inhabited

/-! ### The whole part -/

/-- The state of the VB620, block by block, and the queue of commands that wait. -/
structure State where
  supplies : Supplies
  link : LinkReceiver
  track : TrackAssembler
  engine : Option UnpackJob
  licences : Vector Licence 64
  clock : BoothTime
  showList : Vector Entry 128
  seq : Sequencer
  picture : PicturePort
  sound : SoundEngine
  text : TextEngine
  caption : CaptionLine
  lines : LineController
  cues : Vector AutoCue 256
  recorder : Recorder
  mgmt : Management
  reports : ReportUnit
  lane : ReturnLane
  pending : List Instr
deriving DecidableEq, Repr

/-- The reasons the part could stop with a fault: there is none, since the spec names no condition under which
the part stops. (No constructor; nothing raises it. Safe.) -/
inductive Fault where
deriving DecidableEq, Repr

/-- The reasons a command could be refused. -/
inductive Refusal where
  /-- The command has no meaning yet. Raised by `exec` alone, and by no arm of it now. Safe. -/
  | notModelled (mnemonic : String)
deriving DecidableEq, Repr

/-! ### The state after reset -/

namespace State

/-- The Sequencer after a cold start (R5, R26, R35). -/
def coldSequencer : Sequencer where
  state := .idle
  ctx := none
  seg := 0
  offset := 0
  leadRemaining := 0
  pend := .none
  pausedFrom := none
  pauseCause := none
  pauseSteps := 0
  starvation := 0
  held := 0
  flags := 0
  clockRunning := false
  ticksPerUnit := 4000
  tickCount := 0
  showingTime := 0
  pauseLimit := 900
  starveLimit := 120

/-- The Track Assembler after every start and reset but for the expected sequence numbers (R44, R46, R52). -/
def coldTrack : TrackAssembler where
  slots := Vector.replicate 6 ⟨none, .skipping⟩
  queues := Vector.replicate 4 []

/-- The Picture Port after every start and reset (R76 to R78). -/
def coldPicture : PicturePort where
  left := none
  right := none
  concealed := Vector.replicate 4 false
  records := []

/-- A sound slot after every start and reset: SILENT, no ramp, play store empty (R118). -/
def coldSoundSlot : SoundSlot := ⟨none, false, false⟩

/-- The Sound Engine after a cold start (R118). -/
def coldSound : SoundEngine where
  profiles := Vector.replicate 8 Profile.default
  law := defaultLaw
  fader := 70
  mute := false
  master := 0
  trims := Vector.replicate 18 16384
  inForce := 0
  working := Profile.default
  pendingSel := none
  rate := .r48k
  delay := 0
  rings := Vector.replicate 18 []
  writeIndex := 0
  s0 := coldSoundSlot
  s1 := coldSoundSlot
  instant := 0
  rampCount := 64
  oldRoutes := Vector.replicate 18 none
  switchCount := 0
  heldFade := 256
  clipReported := false
  out := Vector.replicate 18 0

/-- The Text Engine after every start and reset (R140). -/
def coldText : TextEngine where
  store := []
  t0 := .cleared
  t1 := .cleared
  display := Vector.replicate 4 none
  captions := []

/-- An output line with its configuration at rest, and an input line likewise (R157). -/
def restOutput (c : OutConfig) : OutLine := ⟨c, false, .idle, 0, 0, 0⟩
def restInput (c : InConfig) (pinHigh : Bool) : InLine := ⟨c, pinHigh, false, 0, none, false, false⟩

/-- The Line Controller after a cold start (R157). -/
def coldLines : LineController where
  outputs := Vector.replicate 8 (restOutput OutConfig.default)
  inputs := Vector.replicate 8 (restInput InConfig.default false)
  msNumber := 0

/-- The Showing Recorder after a cold start (R171). -/
def coldRecorder : Recorder where
  nextNumber := 1
  status := .none
  record := ShowRecord.fresh 0 ⟨false, 0, 0⟩ []
  log := []
  overwrites := 0
  halfArmed := true
  fullArmed := true

/-- The START_COLD report, stamped with the clock UNSET, no showing and position 0, 0 (R191). -/
def startColdReport : Report where
  kind := .startCold
  time := ⟨false, 0, 0⟩
  showing := 0
  seg := 0
  offset := 0
  detail1 := Config.partCode
  detail2 := Config.revision

/-- The part after a cold start (R191): every field at the value its chapter gives for that start, START_COLD
the one report queued, no command waiting. -/
def reset : State where
  supplies := ⟨true, true, true⟩
  link := ⟨false, 0, LinkCounters.zero, true⟩
  track := coldTrack
  engine := none
  licences := Vector.replicate 64 (Licence.emptied 0)
  clock := ⟨false, 0, 0⟩
  showList := Vector.replicate 128 (Entry.emptied 0)
  seq := coldSequencer
  picture := coldPicture
  sound := coldSound
  text := coldText
  caption := ⟨[], none⟩
  lines := coldLines
  cues := Vector.replicate 256 AutoCue.default
  recorder := coldRecorder
  mgmt := ⟨[], [], 0⟩
  reports := ⟨[startColdReport], ReportUnit.fullMask, 0⟩
  lane := ⟨none, none, 0⟩
  pending := []

end State

end Sys2Proof.Machine
end

