-- ==== Sys2Proof/Machine/Ops.lean ====
section
/-! DEFINITION. The operations every block uses: the update of one block of the state, banks, saturating and
wrapping counts, bytes and check words, delay rings, booth time stamps and the raising of reports. -/

namespace Sys2Proof.Machine

/-! ### One block replaced, every other block as it stands (lemmas in Laws/State.lean) -/

def State.withSupplies (s : State) (x : Supplies) : State := { s with supplies := x }
def State.withLink (s : State) (x : LinkReceiver) : State := { s with link := x }
def State.withTrack (s : State) (x : TrackAssembler) : State := { s with track := x }
def State.withEngine (s : State) (x : Option UnpackJob) : State := { s with engine := x }
def State.withLicences (s : State) (x : Vector Licence 64) : State := { s with licences := x }
def State.withClock (s : State) (x : BoothTime) : State := { s with clock := x }
def State.withShowList (s : State) (x : Vector Entry 128) : State := { s with showList := x }
def State.withSeq (s : State) (x : Sequencer) : State := { s with seq := x }
def State.withPicture (s : State) (x : PicturePort) : State := { s with picture := x }
def State.withSound (s : State) (x : SoundEngine) : State := { s with sound := x }
def State.withText (s : State) (x : TextEngine) : State := { s with text := x }
def State.withCaption (s : State) (x : CaptionLine) : State := { s with caption := x }
def State.withLines (s : State) (x : LineController) : State := { s with lines := x }
def State.withCues (s : State) (x : Vector AutoCue 256) : State := { s with cues := x }
def State.withRecorder (s : State) (x : Recorder) : State := { s with recorder := x }
def State.withMgmt (s : State) (x : Management) : State := { s with mgmt := x }
def State.withReports (s : State) (x : ReportUnit) : State := { s with reports := x }
def State.withLane (s : State) (x : ReturnLane) : State := { s with lane := x }
def State.withPending (s : State) (x : List Instr) : State := { s with pending := x }

/-! ### Banks: fixed tables indexed by a number -/

/-- Place i of a bank; past its end, the type's default (no operation reads there: indices are checked first). -/
def bankGet {α : Type} [Inhabited α] {n : Nat} (v : Vector α n) (i : Nat) : α := v[i]?.getD default

/-- The bank with place i replaced; past its end, the bank as it stands. -/
def bankSet {α : Type} {n : Nat} (v : Vector α n) (i : Nat) (x : α) : Vector α n := v.setIfInBounds i x

/-- Every place of a bank changed by one function. -/
def bankMap {α β : Type} {n : Nat} (f : α → β) (v : Vector α n) : Vector β n :=
  ⟨(v.toList.map f).toArray, by simp⟩

/-- The bank whose place i is `f i`. -/
def bankOf {α : Type} (n : Nat) (f : Nat → α) : Vector α n := ⟨((List.range n).map f).toArray, by simp⟩

/-! ### Counts -/

/-- A count that stops at the top of its range (R43, R160). -/
def addTo (top n d : Nat) : Nat := min top (n + d)

/-- The tops of 8-, 16- and 32-bit ranges. -/
def top8 : Nat := 255
def top16 : Nat := 65535
def top32 : Nat := 4294967295

/-- A generation raised by 1, 65,535 being followed by 0 (R1, R79, R176). -/
def nextGeneration (g : Nat) : Nat := (g + 1) % 65536

/-! ### Bytes -/

/-- A number in w bytes, most significant byte first (R175). -/
def be : Nat → Nat → List Byte
  | 0, _ => []
  | w + 1, n => BitVec.ofNat 8 (n / 256 ^ w) :: be w n

/-- The number that bytes spell, most significant byte first. -/
def fromBe (l : List Byte) : Nat := l.foldl (fun a b => a * 256 + b.toNat) 0

/-- w bytes of a block from place i on, as a number. -/
def field (p : List Byte) (i w : Nat) : Nat := fromBe ((p.drop i).take w)

/-- One byte of a block as a number, 0 past its end. -/
def byteAt (p : List Byte) (i : Nat) : Nat := (p.getD i 0).toNat

/-- A yes-or-no field in one byte (R175). -/
def yesNo (b : Bool) : List Byte := [if b then 1 else 0]

/-- A 128-bit id in 16 bytes. -/
def idBytes (x : Id128) : List Byte := be 16 x.toNat

/-- A 128-bit id read from 16 bytes. -/
def idField (p : List Byte) (i : Nat) : Id128 := BitVec.ofNat 128 (field p i 16)

/-! ### Check words -/

/-- f applied n times. -/
def times {α : Type} (f : α → α) : Nat → α → α
  | 0, x => x
  | n + 1, x => times f n (f x)

/-- One bit of the header CRC: polynomial 1021h, most significant bit first (R41). -/
def crc16Bit (c : BitVec 16) : BitVec 16 := if c.msb then (c <<< 1) ^^^ 0x1021#16 else c <<< 1

/-- The header check over bytes: initial value FFFFh, no reflection, no final XOR (R41). -/
def crc16 (l : List Byte) : BitVec 16 :=
  l.foldl (fun (c : BitVec 16) (b : Byte) => times crc16Bit 8 (c ^^^ (b.zeroExtend 16 <<< (8 : Nat)))) 0xFFFF#16

/-- One bit of the frame CRC in its reflected form: EDB88320h is 04C11DB7h with its bits reversed, so taking
each byte least significant bit first and shifting right is the reflected input and result of R69. -/
def crc32Bit (c : BitVec 32) : BitVec 32 :=
  if c.getLsbD 0 then (c >>> 1) ^^^ 0xEDB88320#32 else c >>> 1

/-- The frame check over plaintext: initial value FFFFFFFFh, final exclusive-or FFFFFFFFh (R69). -/
def crc32 (l : List Byte) : BitVec 32 :=
  (l.foldl (fun (c : BitVec 32) (b : Byte) => times crc32Bit 8 (c ^^^ b.zeroExtend 32)) 0xFFFFFFFF#32)
    ^^^ 0xFFFFFFFF#32

/-! ### Delay rings (R116): lists of the samples that are not 0, in ascending place -/

/-- The sample at a place; a place not listed holds 0. -/
def ringGet : DelayRing → Nat → Int
  | [], _ => 0
  | (j, x) :: r, i => if i = j then x else if i < j then 0 else ringGet r i

/-- The ring with one place written. Writing 0 takes the place off the list. -/
def ringSet : DelayRing → Nat → Int → DelayRing
  | [], i, y => if y = 0 then [] else [(i, y)]
  | (j, x) :: r, i, y =>
    if i < j then (if y = 0 then (j, x) :: r else (i, y) :: (j, x) :: r)
    else if i = j then (if y = 0 then r else (i, y) :: r)
    else (j, x) :: ringSet r i y

/-- The canonical form from place `lo` on: places rising, below the ring's length, no listed sample 0, every
sample a signed 24-bit value (R114, R116). -/
def ringWfFrom : Nat → DelayRing → Bool
  | _, [] => true
  | lo, (j, x) :: r =>
    decide (lo ≤ j) && decide (j < Config.ringLength) && decide (x ≠ 0) &&
      decide (-8388608 ≤ x) && decide (x ≤ 8388607) && ringWfFrom (j + 1) r

/-- A delay ring in its canonical form. -/
def ringWf (r : DelayRing) : Bool := ringWfFrom 0 r

/-! ### Stamps and reports -/

/-- Booth time as a stamp: seconds 0 while the clock is UNSET (R94). -/
def boothNow (s : State) : BoothTime :=
  ⟨s.clock.isSet, if s.clock.isSet then s.clock.seconds else 0, s.clock.fraction⟩

/-- The showing number a report carries: that of the current record while it is OPEN, else 0 (R186). -/
def showingNow (s : State) : Nat :=
  if s.recorder.status = .opened then s.recorder.record.number else 0

/-- The code of a report kind (R187). -/
def ReportKind.code : ReportKind → Nat
  | .showState => 0 | .segmentStart => 1 | .segmentEnd => 2 | .counted => 3 | .showingEnd => 4
  | .conceal => 5 | .starved => 6 | .lineEdge => 7 | .mark => 8 | .licenceState => 9 | .logHalf => 10
  | .logFull => 11 | .logOverwrite => 12 | .linkState => 13 | .linkError => 14 | .clip => 15
  | .captionTruncated => 16 | .cueDropped => 17 | .resourceLate => 18 | .resourceDropped => 19
  | .startCold => 20 | .startWarm => 21 | .reportsLost => 22

/-- How many detail words a report kind carries (R187). -/
def ReportKind.details : ReportKind → Nat
  | .linkState => 1 | .linkError => 1 | .reportsLost => 1
  | .showState => 2 | .segmentStart => 2 | .segmentEnd => 2 | .counted => 2 | .showingEnd => 2
  | .conceal => 2 | .starved => 2 | .lineEdge => 2 | .mark => 2 | .licenceState => 2 | .logHalf => 2
  | .logFull => 2 | .logOverwrite => 2 | .clip => 2 | .captionTruncated => 2 | .cueDropped => 2
  | .resourceLate => 2 | .resourceDropped => 2 | .startCold => 2 | .startWarm => 2

/-- A report entry stamped as R186 gives, with the showing number named. -/
def stamped (kind : ReportKind) (showing d1 d2 : Nat) (s : State) : Report where
  kind := kind
  time := boothNow s
  showing := showing
  seg := s.seq.seg
  offset := s.seq.offset
  detail1 := d1
  detail2 := d2

/-- The report queue offered an entry (R186, R188, R189): a masked kind leaves no trace, a full queue raises the
lost count, and any other entry joins the end. -/
def ReportUnit.offer (r : Report) (u : ReportUnit) : ReportUnit :=
  if u.mask.getLsbD r.kind.code = false then u
  else if Config.reportPlaces ≤ u.queue.length then { u with lost := addTo top32 u.lost 1 }
  else { u with queue := u.queue ++ [r] }

/-- A report raised with the showing number named (SHOWING_END, R165). -/
def raiseAs (kind : ReportKind) (showing d1 d2 : Nat) (s : State) : State :=
  s.withReports (s.reports.offer (stamped kind showing d1 d2 s))

/-- A report raised (R186). -/
def raise (kind : ReportKind) (d1 d2 : Nat) (s : State) : State := raiseAs kind (showingNow s) d1 d2 s

/-- A report raised where a condition holds. -/
def raiseIf (c : Bool) (kind : ReportKind) (d1 d2 : Nat) (s : State) : State :=
  if c then raise kind d1 d2 s else s

end Sys2Proof.Machine
end

