-- ==== Sys2Proof/Machine/Flags.lean ====
section
/-! DEFINITION. The show flags and what reads them (R9, R20), the pending controls (R14 to R17) and the three
Sequencer limits' tests (R21 to R23). -/

namespace Sys2Proof.Machine

/-- The flags after a change by set, clear and toggle masks (R20): a toggled flag is inverted whatever its other
bits; else set and clear together invert, set alone sets, clear alone clears. -/
def changeFlags (flags set clear toggle : Mask8) : Mask8 :=
  (toggle &&& ~~~flags) |||
  (~~~toggle &&& ((set &&& clear &&& ~~~flags) ||| (set &&& ~~~clear) ||| (~~~set &&& ~~~clear &&& flags)))

/-- A condition against the flags (R9): a flag condition holds when the flag equals its sense. -/
def Condition.holds (flags : Mask8) : Condition → Bool
  | .always => true
  | .flag k sense => flags.getLsbD k == sense

/-- The show flags changed in the Sequencer (R20). -/
def setFlagsBy (set clear toggle : Mask8) (s : State) : State :=
  s.withSeq { s.seq with flags := changeFlags s.seq.flags set clear toggle }

/-! ### Controls: each answers the outcome a request would get, and the state with the control pending -/

/-- GO (R14). -/
def takeGo (s : State) : ReplyOutcome × State :=
  match s.seq.state with
  | .cued | .hold =>
    if s.seq.held ≠ 0 then (.held, s)
    else (.ok, s.withSeq { s.seq with pend := { s.seq.pend with go := true } })
  | .idle | .lead | .playing | .paused => (.state, s)

/-- The pause limit test (R21, R23): PAUSED, no resume pending, limit above 0 and reached. -/
def Sequencer.limitReached (q : Sequencer) : Bool :=
  q.state == .paused && !q.pend.resume && decide (0 < q.pauseLimit) && decide (256 * q.pauseLimit ≤ q.pauseSteps)

/-- The pause limit tested: the timeout becomes pending where it is reached (R21, R23). -/
def Sequencer.testLimit (q : Sequencer) : Sequencer :=
  if q.limitReached then { q with pend := { q.pend with timeout := true } } else q

/-- PAUSE with cause OPERATOR (R15). In PAUSED it clears a pending resume, and the limit is tested again from the
current pause steps (R21). -/
def takePause (s : State) : ReplyOutcome × State :=
  match s.seq.state with
  | .lead | .playing =>
    (.ok, s.withSeq { s.seq with pend := { s.seq.pend with pause := some .operator, resume := false } })
  | .paused =>
    if s.seq.pend.resume then
      (.ok, s.withSeq ({ s.seq with pend := { s.seq.pend with resume := false } } : Sequencer).testLimit)
    else (.ok, s)
  | .idle | .cued | .hold => (.state, s)

/-- RESUME (R15): in PAUSED it sets the pending resume; in LEAD or PLAYING it clears a pending pause. -/
def takeResume (s : State) : ReplyOutcome × State :=
  match s.seq.state with
  | .paused =>
    if s.seq.held ≠ 0 then (.held, s)
    else (.ok, s.withSeq { s.seq with pend := { s.seq.pend with resume := true } })
  | .lead | .playing =>
    if s.seq.pend.pause = none then (.state, s)
    else if s.seq.held ≠ 0 then (.held, s)
    else (.ok, s.withSeq { s.seq with pend := { s.seq.pend with pause := none } })
  | .idle | .cued | .hold => (.state, s)

/-- STOP (R16). -/
def takeStop (s : State) : ReplyOutcome × State :=
  if s.seq.state = .idle then (.state, s)
  else (.ok, s.withSeq { s.seq with pend := { s.seq.pend with stop := true } })

/-! ### Held inputs (R17) -/

/-- Input i in the held inputs set, a pending go and a pending resume cleared. -/
def Sequencer.joined (i : Nat) (q : Sequencer) : Sequencer :=
  { q with held := q.held ||| (1#8 <<< i), pend := { q.pend with go := false, resume := false } }

/-- Input i joins the held inputs set: a pending go and a pending resume are cleared at once. Where a resume was
pending the pause limit is tested again, as it is when a PAUSE clears one (R21, assumption log 21). -/
def joinHeld (i : Nat) (s : State) : State :=
  s.withSeq (if s.seq.pend.resume then (s.seq.joined i).testLimit else s.seq.joined i)

/-- Input i leaves the held inputs set: nothing is resumed or started. -/
def leaveHeld (i : Nat) (s : State) : State :=
  s.withSeq { s.seq with held := s.seq.held &&& ~~~(1#8 <<< i) }

/-- Input i is in the held inputs set. -/
def inHeld (i : Nat) (s : State) : Bool := s.seq.held.getLsbD i

/-! ### Starvation (R22, R23) -/

/-- The starvation limit is reached: PLAYING, limit above 0. -/
def Sequencer.starves (q : Sequencer) : Bool :=
  q.state == .playing && decide (0 < q.starveLimit) && decide (q.starveLimit ≤ q.starvation)

/-- The index of the segment being played, as reports carry it. -/
def Sequencer.playedIndex (q : Sequencer) : Nat := q.seg

/-- The starved pause becomes pending, any pending resume is cleared, and STARVED is raised (R22). -/
def starve (s : State) : State :=
  raise .starved s.seq.starvation s.seq.playedIndex
    (s.withSeq { s.seq with pend := { s.seq.pend with pause := some .starved, resume := false } })

end Sys2Proof.Machine
end

