-- ==== Sys2Proof/Machine/Timeline.lean ====
section
/-! DEFINITION. Timeline arithmetic and the show list read as a show: ticks and samples (R25), lead units and
delays (R36, R38), the show and its pairs (R4, R10), positions compared (R29) and due (R30, R74). -/

namespace Sys2Proof.Machine

/-! ### Ticks, units and samples (R25, R36 to R38) -/

/-- Units per second. -/
def EditRate.perSecond : EditRate → Nat
  | .r24 => 24 | .r25 => 25 | .r30 => 30 | .r48 => 48 | .r50 => 50 | .r60 => 60

/-- Ticks per unit (R25). -/
def EditRate.ticks : EditRate → Nat
  | .r24 => 4000 | .r25 => 3840 | .r30 => 3200 | .r48 => 2000 | .r50 => 1920 | .r60 => 1600

/-- Samples per second. -/
def SampleRate.hz : SampleRate → Nat
  | .r48k => 48000 | .r96k => 96000

/-- Ticks per sample (R25). -/
def SampleRate.ticks : SampleRate → Nat
  | .r48k => 2 | .r96k => 1

/-- Samples per unit, a whole number at either rate (R25). -/
def samplesPerUnit (e : EditRate) (r : SampleRate) : Nat := e.ticks / r.ticks

/-- Lead units of a lead gap of g ms (R36). -/
def leadUnitsOf (g : Nat) (e : EditRate) : Nat := (g * e.perSecond + 999) / 1000

/-- The delay in samples of a sync delay of v tenths of a millisecond (R38). -/
def delaySamples (v : Nat) (r : SampleRate) : Nat := (v * r.hz + 5000) / 10000

/-- The length of line millisecond k of a run of 1,000, in booth oscillator cycles (R141). -/
def lineMsCycles (k : Nat) : Nat := if 768 * k / 1000 < 768 * (k + 1) / 1000 then 33 else 32

/-! ### The show (R4) and its pairs (R10) -/

/-- The show length: entries before the first EMPTY one, or all 128 (R4). -/
def showLength (l : Vector Entry 128) : Nat := l.toList.findIdx (fun e => e.cls == .empty)

/-- The alternate of entry p where p is a valid principal (R10): within the show, alternate-only, of the same class
and edit rate, naming p back, and p itself not alternate-only. -/
def validAlternate (l : Vector Entry 128) (p : Nat) : Option Nat :=
  let e := bankGet l p
  match e.alternate with
  | none => none
  | some a =>
    let m := bankGet l a
    if !e.altOnly && decide (a < showLength l) && m.altOnly && m.cls == e.cls && m.rate == e.rate &&
        m.alternate == some p
    then some a else none

/-- The member that a selection of principal p plays, and the member it does not play (R10). -/
def playedMember (l : Vector Entry 128) (p : Nat) : Nat × Option Nat :=
  match validAlternate l p with
  | none => (p, none)
  | some a => if (bankGet l p).dueAlternate then (a, some p) else (p, some a)

/-- Selection (R10) over the entries still to look at: the entries skipped, in order, and the entry selected. -/
def selectFrom (l : Vector Entry 128) (flags : Mask8) : List Nat → List Nat × Option Nat
  | [] => ([], none)
  | i :: rest =>
    let e := bankGet l i
    if e.altOnly then selectFrom l flags rest
    else if e.cond.holds flags then ([], some i)
    else
      let r := selectFrom l flags rest
      (i :: r.1, r.2)

/-- Selection from an index up to the show length (R10). -/
def selectAt (l : Vector Entry 128) (flags : Mask8) (start : Nat) : List Nat × Option Nat :=
  selectFrom l flags ((List.range (showLength l)).drop start)

/-! ### Positions (R29) and due positions (R30) -/

/-- A place within a segment: its start (before every unit), a reel unit, or its end (after every unit). -/
inductive Place where
  | start
  | unit (u : Nat)
  | finish
deriving DecidableEq, Repr

/-- One place of a segment before another of the same segment. -/
def Place.lt : Place → Place → Bool
  | .start, .start => false
  | .start, _ => true
  | .unit u, .unit v => decide (u < v)
  | .unit _, .finish => true
  | .unit _, .start => false
  | .finish, _ => false

/-- The play rank of an entry (R29): its own index, or the lowest index of a principal that names it where it is
alternate-only. -/
def playRank (l : Vector Entry 128) (i : Nat) : Nat :=
  if (bankGet l i).altOnly then
    ((List.range 128).find? (fun p => !(bankGet l p).altOnly && (bankGet l p).alternate == some i)).getD i
  else i

/-- The comparison of R29: rank first; within one entry the place; between two entries of one rank, the member of
the current pair that is not being played comes first, and else the lower index does (assumption log 18, 19). -/
def posBefore (l : Vector Entry 128) (other : Option Nat) (a : Nat × Place) (b : Nat × Place) : Bool :=
  let ra := playRank l a.1
  let rb := playRank l b.1
  if ra < rb then true
  else if rb < ra then false
  else if a.1 = b.1 then a.2.lt b.2
  else if other = some a.1 then true
  else if other = some b.1 then false
  else decide (a.1 < b.1)

/-- The member of the current pair that is not being played. -/
def unplayed (s : State) : Option Nat := s.seq.ctx.bind (·.other)

/-- Position a is before position b, with the show list and the current pair as they stand (R29). -/
def before (s : State) (a b : Nat × Place) : Bool := posBefore s.showList (unplayed s) a b

/-- The Sequencer has passed entry i in coming to a context (R10, R47 step 2, R123): the entry's play rank is below the
principal selected, skipped entries and partners passed over among them, or it is the member of the selected pair that is
not played. These entries are before the member played by R29 too, but where a lower entry written during the show names
the partner played as well, which then takes that entry's play rank (assumption log 45). -/
def Context.passes (c : Context) (l : Vector Entry 128) (i : Nat) : Bool :=
  i != c.played && (decide (playRank l i < c.principal) || c.other == some i)

/-- Entry i is one the Sequencer has passed. -/
def isPassed (s : State) (i : Nat) : Bool := s.seq.ctx.any (·.passes s.showList i)

/-- The due position (R30). -/
def dueOf (q : Sequencer) : Option (Nat × Place) :=
  match q.ctx with
  | none => none
  | some c =>
    match q.state with
    | .idle => none
    | .cued | .hold | .lead => some (c.played, .unit c.segment.entryPoint)
    | .playing =>
      if q.offset + 1 < c.segment.duration then some (c.played, .unit (c.segment.entryPoint + (q.offset + 1)))
      else some (c.played, .finish)
    | .paused => some (c.played, .unit (c.segment.entryPoint + q.offset))

/-- The due position of a slot: P1 of a mono segment has the end of the segment (R74). -/
def slotDue (q : Sequencer) (slot : Nat) : Option (Nat × Place) :=
  match q.ctx with
  | some c => if slot = 1 && !c.segment.stereo && q.state != .idle then some (c.played, .finish) else dueOf q
  | none => none

/-- Position a is before the due position of a slot (LATE, R30), or of an entry the Sequencer has passed (R47 step 2). -/
def lateFor (s : State) (slot : Nat) (a : Nat × Place) : Bool :=
  match slotDue s.seq slot with
  | none => false
  | some d => before s a d || isPassed s a.1

/-- The reel unit number of the playback position (R28). -/
def reelUnit (q : Sequencer) : Nat :=
  match q.ctx with
  | some c => c.segment.entryPoint + q.offset
  | none => q.offset

/-- The reel unit number of a segment's last unit (R28). -/
def Segment.lastReelUnit (g : Segment) : Nat := g.entryPoint + (g.duration - 1)

/-- The segment whose attributes a unit of entry i is judged by: the context for the played member, else the show
list entry as it stands (R47, R51, R66). -/
def segmentOf (s : State) (i : Nat) : Segment :=
  match s.seq.ctx with
  | some c => if c.played = i then c.segment else (bankGet s.showList i).toSegment
  | none => (bankGet s.showList i).toSegment

/-- Entry i is the one that will be played for its place in the show (R47 step 3): for the current place the played
member of the context alone, whatever the current principal names by now; for a later one the member R10 would play. Any
later entry of the 128 may be the principal of an alternate-only one, those at or above the show length too: the model's
choice (assumption log 38). -/
def expectedMember (s : State) (i : Nat) : Bool :=
  match s.seq.ctx with
  | some c =>
    if c.played = i then true else
      let e := bankGet s.showList i
      if e.altOnly then
        (List.range 128).any (fun p =>
          decide (c.principal < p) && validAlternate s.showList p == some i && (bankGet s.showList p).dueAlternate)
      else !((validAlternate s.showList i).isSome && e.dueAlternate)
  | none => false

end Sys2Proof.Machine
end

