-- ==== Sys2Proof/Machine/Operands.lean ====
section
/-! DEFINITION. The coding of parameters and reply data (R175): each enumeration's codes, each body of 10.4 read and
written, and whether its bytes lie inside their coding. A reader is total; the check beside it says where it counts. -/

namespace Sys2Proof.Machine

/-! ### Enumerations: coded from 0 in the order their rule lists them (R175) -/

def SegClass.code : SegClass → Nat
  | .empty => 0 | .preshow => 1 | .advert => 2 | .trailer => 3 | .intermission => 4 | .feature => 5 | .exit => 6

def SegClass.ofCode : Nat → SegClass
  | 1 => .preshow | 2 => .advert | 3 => .trailer | 4 => .intermission | 5 => .feature | 6 => .exit | _ => .empty

def EditRate.code : EditRate → Nat
  | .r24 => 0 | .r25 => 1 | .r30 => 2 | .r48 => 3 | .r50 => 4 | .r60 => 5

def EditRate.ofCode : Nat → EditRate
  | 1 => .r25 | 2 => .r30 | 3 => .r48 | 4 => .r50 | 5 => .r60 | _ => .r24

def SampleRate.code : SampleRate → Nat
  | .r48k => 0 | .r96k => 1

def SampleRate.ofCode : Nat → SampleRate
  | 1 => .r96k | _ => .r48k

/-- The Sequencer state as the PACE body codes it (R60). -/
def SeqState.code : SeqState → Nat
  | .idle => 0 | .cued => 1 | .hold => 2 | .lead => 3 | .playing => 4 | .paused => 5

/-- OPERATOR 0, STARVED 1 (R187). -/
def PauseCause.code : PauseCause → Nat
  | .operator => 0 | .starved => 1

/-- The causes of R63. -/
def Cause.code : Cause → Nat
  | .none => 0 | .missing => 1 | .notReady => 2 | .incomplete => 3 | .truncated => 4 | .overlong => 5
  | .keyAbsent => 6 | .keyUnbound => 7 | .keyMismatch => 8 | .plainRefused => 9 | .keyUnexpected => 10
  | .checkFail => 11 | .format => 12

def LineMode.code : LineMode → Nat
  | .off => 0 | .level => 1 | .pulse => 2 | .train => 3

def LineMode.ofCode : Nat → LineMode
  | 1 => .level | 2 => .pulse | 3 => .train | _ => .off

def Activity.code : Activity → Nat
  | .idle => 0 | .delaying => 1 | .on => 2 | .off => 3

def EdgeSetting.code : EdgeSetting → Nat
  | .none => 0 | .rising => 1 | .falling => 2 | .both => 3

def EdgeSetting.ofCode : Nat → EdgeSetting
  | 1 => .rising | 2 => .falling | 3 => .both | _ => .none

def LineAct.code : LineAct → Nat
  | .set => 0 | .clear => 1 | .toggle => 2 | .trigger => 3 | .stop => 4

def LineAct.ofCode : Nat → LineAct
  | 1 => .clear | 2 => .toggle | 3 => .trigger | 4 => .stop | _ => .set

def ResultOutcome.code : ResultOutcome → Nat
  | .inProgress => 0 | .played => 1 | .skipped => 2 | .cutShort => 3 | .unreached => 4

def RecordStatus.code : RecordStatus → Nat
  | .none => 0 | .opened => 1 | .closed => 2

/-! ### Small fields (R175) -/

/-- A yes-or-no byte. -/
def flagAt (p : List Byte) (i : Nat) : Bool := byteAt p i == 1

/-- A byte at or below the top of its coding. -/
def upTo (p : List Byte) (i top : Nat) : Bool := decide (byteAt p i ≤ top)

/-- A mask byte. -/
def maskAt (p : List Byte) (i : Nat) : Mask8 := p.getD i 0

/-- An optional index, FFh when absent. -/
def optIndex (p : List Byte) (i : Nat) : Option Nat := if byteAt p i = 255 then none else some (byteAt p i)

def optIndexByte (o : Option Nat) : List Byte := be 1 (o.getD 255)

/-- An optional count point, FFFFFFFFh when absent. -/
def optPoint (p : List Byte) (i : Nat) : Option Nat := if field p i 4 = top32 then none else some (field p i 4)

/-- A condition (R9): ALWAYS 0; a flag with sense SET 1 or CLEAR 2. -/
def readCondition (p : List Byte) (i : Nat) : Condition :=
  match byteAt p i with
  | 0 => .always
  | 1 => .flag (byteAt p (i + 1)) true
  | _ => .flag (byteAt p (i + 1)) false

/-- A condition byte at most 2, and a flag at most 7 where one is named; byte 1 is not examined for ALWAYS. -/
def conditionOk (p : List Byte) (i : Nat) : Bool := upTo p i 2 && (byteAt p i == 0 || upTo p (i + 1) 7)

def conditionBytes : Condition → List Byte
  | .always => [0, 0]
  | .flag k sense => [if sense then 1 else 2, BitVec.ofNat 8 k]

/-- A set of kinds: bit 0 picture, bit 1 sound, bit 2 text. -/
def readKinds (p : List Byte) (i : Nat) : Kinds :=
  let b := p.getD i 0
  ⟨b.getLsbD 0, b.getLsbD 1, b.getLsbD 2⟩

def kindsByte (k : Kinds) : List Byte :=
  [BitVec.ofNat 8 ((if k.picture then 1 else 0) + (if k.sound then 2 else 0) + (if k.text then 4 else 0))]

/-- A booth time field: seconds, fraction, and bit 0 set while the clock was set, bit 1 for a time present. -/
def timeBytes (t : BoothTime) : List Byte := be 4 t.seconds ++ be 1 t.fraction ++ [if t.isSet then 3 else 2]

/-- A booth time that may be absent, then all zeros. -/
def optTimeBytes : Option BoothTime → List Byte
  | some t => timeBytes t
  | none => be 6 0

/-- An expected generation (R176): a presence byte and two bytes not examined when absent. -/
def expected (p : List Byte) (i : Nat) : Option Nat := if byteAt p i = 1 then some (field p (i + 1) 2) else none

/-- The carried generation is absent or equals the one held (R176). -/
def generationMatches (want : Option Nat) (held : Nat) : Bool :=
  match want with
  | none => true
  | some g => g == held

/-! ### The entry body (R180), 47 bytes from place i on -/

/-- The fields of R1 from an entry body, of an entry of the generation given. -/
def readEntryBody (p : List Byte) (i generation : Nat) : Entry where
  cls := SegClass.ofCode (byteAt p i)
  composition := idField p (i + 1)
  reel := byteAt p (i + 17)
  rate := EditRate.ofCode (byteAt p (i + 18))
  stereo := flagAt p (i + 19)
  srate := SampleRate.ofCode (byteAt p (i + 20))
  entryPoint := field p (i + 21) 3
  duration := field p (i + 24) 3
  isProtected := flagAt p (i + 27)
  cond := readCondition p (i + 28)
  alternate := optIndex p (i + 30)
  altOnly := flagAt p (i + 31)
  dueAlternate := flagAt p (i + 32)
  leadGap := field p (i + 33) 2
  hold := flagAt p (i + 35)
  fadeIn := byteAt p (i + 36)
  fadeOut := byteAt p (i + 37)
  profile := byteAt p (i + 38)
  subtitles := flagAt p (i + 39)
  captions := flagAt p (i + 40)
  cueFirst := byteAt p (i + 41)
  cueCount := byteAt p (i + 42)
  countPoint := optPoint p (i + 43)
  generation := generation

/-- Every byte of an entry body inside its coding (R175). -/
def entryCoded (p : List Byte) (i : Nat) : Bool :=
  upTo p i 6 && upTo p (i + 18) 5 && upTo p (i + 19) 1 && upTo p (i + 20) 1 && upTo p (i + 27) 1 &&
    conditionOk p (i + 28) && upTo p (i + 31) 1 && upTo p (i + 32) 1 && upTo p (i + 35) 1 &&
    upTo p (i + 39) 1 && upTo p (i + 40) 1

/-- The field checks of R2 step 2 on an entry read. -/
def Entry.fieldsOk (e : Entry) : Bool :=
  decide (1 ≤ e.duration) && (match e.alternate with | some a => decide (a ≤ 127) | none => true) &&
    decide (e.leadGap ≤ 60000) && decide (e.profile ≤ 7) && decide (e.cueCount ≤ 32) &&
    decide (e.cueFirst + e.cueCount ≤ 256) && (e.countPoint.isSome == (e.cls == .feature)) &&
    (match e.countPoint with | some c => decide (c ≤ 16777215) | none => true) &&
    (!e.dueAlternate || e.alternate.isSome)

/-- An entry body: the fields of R1 in the order of R180. -/
def entryBody (e : Entry) : List Byte :=
  be 1 e.cls.code ++ idBytes e.composition ++ be 1 e.reel ++ be 1 e.rate.code ++ yesNo e.stereo ++
    be 1 e.srate.code ++ be 3 e.entryPoint ++ be 3 e.duration ++ yesNo e.isProtected ++ conditionBytes e.cond ++
    optIndexByte e.alternate ++ yesNo e.altOnly ++ yesNo e.dueAlternate ++ be 2 e.leadGap ++ yesNo e.hold ++
    be 1 e.fadeIn ++ be 1 e.fadeOut ++ be 1 e.profile ++ yesNo e.subtitles ++ yesNo e.captions ++
    be 1 e.cueFirst ++ be 1 e.cueCount ++ be 4 (e.countPoint.getD top32)

/-! ### The cue body (R180), 10 bytes from place i on -/

/-- An anchor from its code and offset e (R153); e is not examined for NONE and the event anchors. -/
def readAnchor (p : List Byte) (i : Nat) : Anchor :=
  match byteAt p i with
  | 1 => .start (field p (i + 1) 3)
  | 2 => .finish (field p (i + 1) 3)
  | 3 => .lead
  | 4 => .onPause
  | 5 => .onResume
  | 6 => .onStop
  | 7 => .onShowEnd
  | _ => .none

/-- A known anchor with its offset in range: START + e to 16,777,214, END - e from 1 (R153). -/
def anchorOk (p : List Byte) (i : Nat) : Bool :=
  upTo p i 7 && (byteAt p i != 1 || decide (field p (i + 1) 3 ≤ 16777214)) &&
    (byteAt p i != 2 || decide (1 ≤ field p (i + 1) 3))

/-- An action from its code and three operand bytes (R180). -/
def readCueAction (p : List Byte) (i : Nat) : CueAction :=
  match byteAt p i with
  | 0 => .line (byteAt p (i + 1)) (LineAct.ofCode (byteAt p (i + 2)))
  | 1 => .flag (maskAt p (i + 1)) (maskAt p (i + 2)) (maskAt p (i + 3))
  | 2 => .mark (field p (i + 1) 2)
  | _ => .sound (byteAt p (i + 1))

/-- A known action, its line, line action and profile in range (R153). -/
def cueActionOk (p : List Byte) (i : Nat) : Bool :=
  upTo p i 3 && (byteAt p i != 0 || (upTo p (i + 1) 7 && upTo p (i + 2) 4)) &&
    (byteAt p i != 3 || upTo p (i + 1) 7)

/-- The fields of R153 from a cue body, of a cue of the generation given. -/
def readCueBody (p : List Byte) (i generation : Nat) : AutoCue where
  anchor := readAnchor p i
  cond := readCondition p (i + 4)
  action := readCueAction p (i + 6)
  generation := generation

def cueCoded (p : List Byte) (i : Nat) : Bool := anchorOk p i && conditionOk p (i + 4) && cueActionOk p (i + 6)

def anchorBytes : Anchor → List Byte
  | .none => [0, 0, 0, 0]
  | .start e => 1 :: be 3 e
  | .finish e => 2 :: be 3 e
  | .lead => [3, 0, 0, 0]
  | .onPause => [4, 0, 0, 0]
  | .onResume => [5, 0, 0, 0]
  | .onStop => [6, 0, 0, 0]
  | .onShowEnd => [7, 0, 0, 0]

def cueActionBytes : CueAction → List Byte
  | .line n a => [0, BitVec.ofNat 8 n, BitVec.ofNat 8 a.code, 0]
  | .flag x y z => [1, x, y, z]
  | .mark v => 2 :: be 2 v ++ [0]
  | .sound n => [3, BitVec.ofNat 8 n, 0, 0]

/-- A cue body in the order of R180. -/
def cueBody (c : AutoCue) : List Byte := anchorBytes c.anchor ++ conditionBytes c.cond ++ cueActionBytes c.action

/-! ### Sound profiles (R181): 18 route bytes, 18 trims, sync delay -/

def routeOfByte (n : Nat) : Route :=
  if n < 16 then .main n else if n < 18 then .narration (n - 16) else .none

/-- A route byte that output i takes (R102): a main channel or NONE, and on O16 and O17 a narration channel. -/
def routeOk (i n : Nat) : Bool := decide (n < 16) || n == 255 || (decide (16 ≤ i) && decide (n < 18))

def routeByte : Route → Nat
  | .none => 255
  | .main c => c
  | .narration c => 16 + c

/-- The top of the sync delay (R177). -/
def topSync : Nat := 2000

/-- The fields of R101 from place i on, the sync delay clamped (R177), of a profile of the generation given. -/
def readProfileBody (p : List Byte) (i generation : Nat) : Profile where
  routes := bankOf 18 (fun k => routeOfByte (byteAt p (i + k)))
  trims := bankOf 18 (fun k => field p (i + 18 + 2 * k) 2)
  syncDelay := min topSync (field p (i + 54) 2)
  generation := generation

def profileCoded (p : List Byte) (i : Nat) : Bool := (List.range 18).all (fun k => routeOk k (byteAt p (i + k)))

/-- Routes, trims and sync delay in the order of R181. -/
def profileBytes (x : Profile) : List Byte :=
  x.routes.toList.map (fun r => BitVec.ofNat 8 (routeByte r)) ++ x.trims.toList.flatMap (be 2) ++ be 2 x.syncDelay

/-! ### Line configurations (R182) -/

/-- An output line's 13 configuration bytes from place i on. The stop level of an absent gate is not examined. -/
def readOutConfig (p : List Byte) (i : Nat) : OutConfig where
  mode := LineMode.ofCode (byteAt p i)
  activeLow := flagAt p (i + 1)
  delay := field p (i + 2) 2
  width := field p (i + 4) 2
  count := byteAt p (i + 6)
  onTime := field p (i + 7) 2
  offTime := field p (i + 9) 2
  gate := (optIndex p (i + 11)).map (fun g => (g, flagAt p (i + 12)))

/-- The checks of R147, the fields of other modes among them. -/
def outConfigOk (p : List Byte) (i : Nat) : Bool :=
  upTo p i 3 && upTo p (i + 1) 1 && decide (1 ≤ field p (i + 4) 2) && decide (1 ≤ byteAt p (i + 6)) &&
    decide (1 ≤ field p (i + 7) 2) && decide (1 ≤ field p (i + 9) 2) &&
    (byteAt p (i + 11) == 255 || (upTo p (i + 11) 7 && upTo p (i + 12) 1))

def outConfigBytes (c : OutConfig) : List Byte :=
  be 1 c.mode.code ++ yesNo c.activeLow ++ be 2 c.delay ++ be 2 c.width ++ be 1 c.count ++ be 2 c.onTime ++
    be 2 c.offTime ++ optIndexByte (c.gate.map (·.1)) ++ yesNo ((c.gate.map (·.2)).getD false)

/-- An input line's action and masks; the masks are not examined unless the action is FLAG. -/
def readInAction (p : List Byte) (i : Nat) : InAction :=
  match byteAt p i with
  | 1 => .go
  | 2 => .pause
  | 3 => .resume
  | 4 => .stop
  | 5 => .flag (maskAt p (i + 1)) (maskAt p (i + 2)) (maskAt p (i + 3))
  | 6 => .report
  | _ => .none

/-- An input line's 8 configuration bytes from place i on. -/
def readInConfig (p : List Byte) (i : Nat) : InConfig where
  activeLow := flagAt p i
  edge := EdgeSetting.ofCode (byteAt p (i + 1))
  debounce := byteAt p (i + 2)
  action := readInAction p (i + 3)
  held := flagAt p (i + 7)

/-- The checks of R152. -/
def inConfigOk (p : List Byte) (i : Nat) : Bool :=
  upTo p i 1 && upTo p (i + 1) 3 && upTo p (i + 3) 6 && upTo p (i + 7) 1

def inActionBytes : InAction → List Byte
  | .none => [0, 0, 0, 0]
  | .go => [1, 0, 0, 0]
  | .pause => [2, 0, 0, 0]
  | .resume => [3, 0, 0, 0]
  | .stop => [4, 0, 0, 0]
  | .flag x y z => [5, x, y, z]
  | .report => [6, 0, 0, 0]

def inConfigBytes (c : InConfig) : List Byte :=
  yesNo c.activeLow ++ be 1 c.edge.code ++ be 1 c.debounce ++ inActionBytes c.action ++ yesNo c.held

/-! ### Frames of the return lane (R59, R60) -/

/-- The payload of a REPLY cell (R59). -/
def replyBytes (outcome : Nat) (r : Reply) : List Byte := be 2 r.tag ++ be 1 r.kind ++ be 1 outcome ++ r.data

/-- The 24 bytes of a report entry (R60). -/
def reportBytes (r : Report) : List Byte :=
  be 1 r.kind.code ++ be 1 r.kind.details ++ be 4 r.time.seconds ++ be 1 r.time.fraction ++ yesNo r.time.isSet ++
    be 4 r.showing ++ be 1 r.seg ++ be 3 r.offset ++ be 4 r.detail1 ++ be 4 r.detail2

/-- The 19 bytes of a PACE body (R60). -/
def paceBytes (x : Pace) : List Byte :=
  be 1 x.state.code ++ be 1 x.seg ++ be 3 x.offset ++ be 4 x.showing ++ be 1 x.freeP0 ++ be 1 x.freeP1 ++
    be 1 x.freeS0 ++ be 1 x.freeS1 ++ be 2 x.freeEntries ++ be 4 x.freeBytes

end Sys2Proof.Machine
end

