-- ==== Sys2Proof/Machine/Recorder.lean ====
section
/-! DEFINITION. The Showing Recorder: the current showing record and what it is fed (R158 to R162), its close
(R165, R166), the showing log and its collection (R167 to R169). The count of R163 stands in Licence.lean. -/

namespace Sys2Proof.Machine

/-! ### Figures (R160): discarded while the record is not OPEN -/

/-- A change of the OPEN record; a figure handed while it is not OPEN is discarded (R160). -/
def Recorder.feed (f : ShowRecord → ShowRecord) (r : Recorder) : Recorder :=
  if r.status = .opened then { r with record := f r.record } else r

/-- A change of the last result where it is IN_PROGRESS (R159: at most one is, and it is the last). -/
def changeLast (f : SegResult → SegResult) : List SegResult → List SegResult
  | [] => []
  | [x] => [if x.outcome = .inProgress then f x else x]
  | x :: y :: l => x :: changeLast f (y :: l)

/-- A change of the IN_PROGRESS result of the OPEN record. -/
def Recorder.feedResult (f : SegResult → SegResult) (r : Recorder) : Recorder :=
  r.feed (fun rec => { rec with results := changeLast f rec.results })

def feedRecord (f : ShowRecord → ShowRecord) (s : State) : State := s.withRecorder (s.recorder.feed f)
def feedResult (f : SegResult → SegResult) (s : State) : State := s.withRecorder (s.recorder.feedResult f)

/-- The top of the unit count of a result, and of its two concealment counts (R159). -/
def topUnits : Nat := 16777215
def topConcealed : Nat := 33554430

def countUnitOutput (s : State) : State :=
  feedResult (fun x => { x with unitsOutput := addTo topUnits x.unitsOutput 1 }) s
def countPictureConcealed (n : Nat) (s : State) : State :=
  feedResult (fun x => { x with pictureConcealed := addTo topConcealed x.pictureConcealed n }) s
def countSoundConcealed (n : Nat) (s : State) : State :=
  feedResult (fun x => { x with soundConcealed := addTo topConcealed x.soundConcealed n }) s
def countCueShown (s : State) : State :=
  feedResult (fun x => { x with cuesShown := addTo top32 x.cuesShown 1 }) s
def countCueDropped (s : State) : State :=
  feedRecord (fun r => { r with cuesDropped := addTo top32 r.cuesDropped 1 }) s
def countBadCues (n : Nat) (s : State) : State :=
  feedRecord (fun r => { r with badCues := addTo top32 r.badCues n }) s
def countMissing (s : State) : State :=
  feedRecord (fun r => { r with missing := addTo top32 r.missing 1 }) s
def countClip (s : State) : State :=
  feedRecord (fun r => { r with clips := addTo top32 r.clips 1 }) s
def countPause (s : State) : State :=
  feedRecord (fun r => { r with pauses := addTo top32 r.pauses 1 }) s
def countPausedTime (n : Nat) (s : State) : State :=
  feedRecord (fun r => { r with pausedTime := addTo top32 r.pausedTime n }) s

/-! ### Results (R159) -/

/-- A result with every count 0. -/
def SegResult.blank (index : Nat) (outcome : ResultOutcome) (feature : Option Id128) : SegResult :=
  ⟨index, outcome, 0, 0, 0, 0, feature⟩

/-- The results a selection makes: SKIPPED ones in ascending index, then the IN_PROGRESS one (R159). A partner already
played, written during the show to be no longer alternate-only and met again, gets a second result, though R159 says that
no entry index appears twice: the model's choice (assumption log 47). -/
def recordSelection (skipped : List Nat) (ctx : Context) (s : State) : State :=
  feedRecord (fun r => { r with
    results := r.results ++ skipped.map (fun i => SegResult.blank i .skipped none) ++
      [SegResult.blank ctx.played .inProgress
        (if ctx.segment.cls = .feature then some ctx.segment.composition else none)]
    lastPrincipal := ctx.principal }) s

/-- The results of a selection that found no entry: SKIPPED ones alone (R10). -/
def recordSkipped (skipped : List Nat) (s : State) : State :=
  feedRecord (fun r => { r with results := r.results ++ skipped.map (fun i => SegResult.blank i .skipped none) }) s

/-- The segment in progress is handed as PLAYED (R13 step 1). -/
def recordPlayed (s : State) : State := feedResult (fun x => { x with outcome := .played }) s

/-- Units output of the last result, as SEGMENT_END carries it (R187). -/
def lastUnitsOutput (s : State) : Nat := (s.recorder.record.results.getLast?.map (·.unitsOutput)).getD 0

/-! ### Opening (R161, R162) -/

/-- A new OPEN record under the next showing number, which rises by 1 (R161). -/
def openShowing (bound : List Nat) (s : State) : State :=
  s.withRecorder { s.recorder with
    nextNumber := s.recorder.nextNumber + 1
    status := .opened
    record := ShowRecord.fresh s.recorder.nextNumber (boothNow s) bound }

/-- The start time, set once (R162). -/
def recordStart (s : State) : State :=
  feedRecord (fun r => if r.startTime.isSome then r else { r with startTime := some (boothNow s) }) s

/-! ### The showing log (R167 to R169) -/

/-- The uncollected count (R169). -/
def uncollected (log : List LogRecord) : Nat := (log.filter (fun r => !r.collected)).length

/-- The oldest uncollected showing number, 0 where there is none. -/
def oldestUncollected (log : List LogRecord) : Nat :=
  ((log.find? (fun r => !r.collected)).map (·.number)).getD 0

/-- The code of an end cause (R158). -/
def EndCause.code : EndCause → Nat
  | .complete => 0 | .stopped => 1 | .pauseTimeout => 2 | .cancelled => 3 | .reset => 4 | .interrupted => 5

/-- The log record that condenses a closed showing record (R168). -/
def condense (r : ShowRecord) (cause : EndCause) : LogRecord where
  number := r.number
  startTime := r.startTime
  endTime := r.endTime
  endCause := cause
  counted := r.counted
  countTime := r.countTime
  feature := ((r.results.find? (fun x => x.feature.isSome && decide (0 < x.unitsOutput))).bind (·.feature))
  keyIds := (r.countedLicences.take 8).map (·.2)
  more := decide (8 < r.countedLicences.length)
  unitsOutput := (r.results.map (·.unitsOutput)).sum
  pictureConcealed := (r.results.map (·.pictureConcealed)).sum
  soundConcealed := (r.results.map (·.soundConcealed)).sum
  cuesDropped := r.cuesDropped
  clips := r.clips
  collected := false

/-- The log with its oldest record gone where it is full (R167). -/
def Recorder.madeRoom (r : Recorder) : Recorder :=
  if Config.logPlaces ≤ r.log.length then { r with log := r.log.drop 1 } else r

/-- The record that leaves a full log uncollected, where one does (R167). -/
def Recorder.losing (r : Recorder) : Option LogRecord :=
  if Config.logPlaces ≤ r.log.length then
    match r.log.head? with
    | some x => if x.collected then none else some x
    | none => none
  else none

/-- A log record appended (R167): the oldest leaves a full log, with LOG_OVERWRITE where it was uncollected; then
LOG_HALF and LOG_FULL are raised and disarmed as the uncollected count rises to 128 and 256 (R169). -/
def appendLog (x : LogRecord) (s : State) : State :=
  let s1 :=
    match s.recorder.losing with
    | some old =>
      let n := addTo top32 s.recorder.overwrites 1
      raise .logOverwrite old.number n (s.withRecorder { s.recorder with overwrites := n })
    | none => s
  let before := uncollected s.recorder.log
  let r := s1.recorder.madeRoom
  let log := r.log ++ [x]
  let u := uncollected log
  let half := decide (before < u) && u == 128 && r.halfArmed
  let full := decide (before < u) && u == 256 && r.fullArmed
  let s2 := s1.withRecorder { r with
    log := log
    halfArmed := r.halfArmed && !half
    fullArmed := r.fullArmed && !full }
  raiseIf full .logFull u (oldestUncollected log) (raiseIf half .logHalf u (oldestUncollected log) s2)

/-- MARK COLLECTED n on the log: the log after it, and how many records it marked (R169). -/
def markCollected (n : Nat) (log : List LogRecord) : List LogRecord × Nat :=
  (log.map (fun r => if r.number ≤ n then { r with collected := true } else r),
    (log.filter (fun r => decide (r.number ≤ n) && !r.collected)).length)

/-- The arming flags as the uncollected count falls below 128 and 256 (R169). -/
def Recorder.rearmed (r : Recorder) : Recorder :=
  let u := uncollected r.log
  { r with halfArmed := r.halfArmed || decide (u < 128), fullArmed := r.fullArmed || decide (u < 256) }

/-! ### Closing (R165, R166) -/

/-- The entries recorded UNREACHED at a close (R165 step 2). -/
def unreachedEntries (l : Vector Entry 128) (r : ShowRecord) : List Nat :=
  (List.range (showLength l)).filter (fun i =>
    !(bankGet l i).altOnly && !(r.results.any (fun x => x.index == i)) && decide (r.lastPrincipal < i))

/-- The record as closed (R165 steps 1 to 4). -/
def closedRecord (l : Vector Entry 128) (cause : EndCause) (pauseLength : Nat) (time : BoothTime)
    (r : ShowRecord) : ShowRecord :=
  { r with
    results := changeLast (fun x => { x with outcome := .cutShort }) r.results ++
      (unreachedEntries l r).map (fun i => SegResult.blank i .unreached none)
    pausedTime := addTo top32 r.pausedTime pauseLength
    endTime := some time
    endCause := some cause }

/-- The close of an OPEN record (R165): record closed, log record appended, SHOWING_END raised. -/
def closeShowing (cause : EndCause) (pauseLength : Nat) (s : State) : State :=
  if s.recorder.status = .opened then
    let r := closedRecord s.showList cause pauseLength (boothNow s) s.recorder.record
    let s1 := s.withRecorder { s.recorder with status := .closed, record := r }
    raiseAs .showingEnd r.number cause.code (if r.counted then 1 else 0) (appendLog (condense r cause) s1)
  else s

end Sys2Proof.Machine
end

