-- ==== Sys2Proof/Machine/Licence.lean ====
section
/-! DEFINITION. The Licence Table: loading (R83, R84), binding (R87 to R89), the count (R90,
R163), release (R91, R92) and lapse (R93). -/

namespace Sys2Proof.Machine

/-- The code of a licence state (R79). -/
def LicState.code : LicState → Nat
  | .empty => 0 | .loaded => 1 | .bound => 2 | .spent => 3 | .lapsed => 4

/-- An entry changed, its generation raised by 1 (R81). -/
def Licence.changed (e : Licence) (state : LicState) : Licence :=
  { e with state := state, generation := nextGeneration e.generation }

/-! ### Binding (R87 to R89) -/

/-- A kind of essence: 0 picture, 1 sound, 2 text (R59). -/
def Kinds.has (k : Kinds) (kind : Nat) : Bool :=
  match kind with
  | 0 => k.picture
  | 1 => k.sound
  | 2 => k.text
  | _ => false

/-- The kinds a protected segment needs, in the order picture, sound, text (R87). -/
def neededKinds (e : Segment) : List Nat := if e.subtitles || e.captions then [0, 1, 2] else [0, 1]

/-- Entry x is a candidate for segment e at booth clock second now (R88 step 2). -/
def candidate (now : Nat) (e : Segment) (x : Licence) : Bool :=
  x.state == .loaded && x.composition == e.composition && decide (x.windowStart ≤ now) && decide (now < x.windowEnd) &&
    (x.permitted == 0 || decide (x.counted < x.permitted)) && (neededKinds e).any x.kinds.has

/-- The show list indices binding examines (R87). -/
def examined (l : Vector Entry 128) : List Nat :=
  (List.range (showLength l)).filter (fun i => (bankGet l i).isProtected)

/-- A kind of a segment is covered by some candidate (R88 step 3). -/
def covered (lic : Vector Licence 64) (now : Nat) (e : Segment) (kind : Nat) : Bool :=
  lic.toList.any (fun x => candidate now e x && x.kinds.has kind)

/-- The first kind of a segment left uncovered. -/
def uncoveredKind (lic : Vector Licence 64) (now : Nat) (e : Segment) : Option Nat :=
  (neededKinds e).find? (fun k => !covered lic now e k)

/-- The first examined segment with a kind uncovered, and that kind (R88 step 3). -/
def firstUncovered (l : Vector Entry 128) (lic : Vector Licence 64) (now : Nat) : List Nat → Option (Nat × Nat)
  | [] => none
  | i :: rest =>
    match uncoveredKind lic now (bankGet l i).toSegment with
    | some k => some (i, k)
    | none => firstUncovered l lic now rest

/-- An entry is bound where it is a candidate for an examined segment (R89). -/
def bindable (l : Vector Entry 128) (now : Nat) (x : Licence) : Bool :=
  (examined l).any (fun i => candidate now (bankGet l i).toSegment x)

/-- The bound slots, in ascending order (R89). -/
def boundSlots (l : Vector Entry 128) (lic : Vector Licence 64) (now : Nat) : List Nat :=
  (List.range 64).filter (fun i => bindable l now (bankGet lic i))

/-- The table with every candidate bound (R89). -/
def bindAll (l : Vector Entry 128) (lic : Vector Licence 64) (now : Nat) : Vector Licence 64 :=
  bankMap (fun x => if bindable l now x then x.changed .bound else x) lic

/-! ### Release and lapse (R91 to R93, R97) -/

/-- What a BOUND entry becomes when released at booth clock second now (R91). -/
def releasedState (now : Nat) (x : Licence) : LicState :=
  if 0 < x.permitted ∧ x.counted = x.permitted then .spent
  else if x.windowEnd ≤ now then .lapsed
  else .loaded

/-- One slot released where it is BOUND, with LICENCE_STATE where it is spent or lapsed (R91, R97). -/
def releaseSlot (s : State) (i : Nat) : State :=
  let x := bankGet s.licences i
  if x.state = .bound then
    let t := releasedState s.clock.seconds x
    raiseIf (t != .loaded) .licenceState i t.code (s.withLicences (bankSet s.licences i (x.changed t)))
  else s

/-- Every BOUND entry released, in ascending slot order (R91, R97). -/
def releaseAll (s : State) : State := (List.range 64).foldl releaseSlot s

/-- One slot in the lapse check (R93). -/
def lapseSlot (s : State) (i : Nat) : State :=
  let x := bankGet s.licences i
  if x.state = .loaded ∧ x.windowEnd ≤ s.clock.seconds then
    raise .licenceState i LicState.lapsed.code (s.withLicences (bankSet s.licences i (x.changed .lapsed)))
  else s

/-- The lapse check: not made while the clock is UNSET (R93). -/
def lapseCheck (s : State) : State :=
  if s.clock.isSet then (List.range 64).foldl lapseSlot s else s

/-! ### The count (R90, R163) -/

/-- Entry x is counted for a showing of a composition (R163). -/
def countable (composition : Id128) (showing : Nat) (x : Licence) : Bool :=
  x.state == .bound && x.composition == composition && x.lastCounted != showing

/-- An entry as the count leaves it (R90). -/
def Licence.countedIn (showing : Nat) (x : Licence) : Licence :=
  { x with
    counted := addTo top16 x.counted 1
    lastCounted := showing
    generation := nextGeneration x.generation }

/-- The slots counted, in ascending order. -/
def countedSlots (s : State) (composition : Id128) : List Nat :=
  (List.range 64).filter (fun i => countable composition s.recorder.record.number (bankGet s.licences i))

/-- The showing counted at the count point of the segment in the context (R163): licences, record and COUNTED. -/
def countShowing (c : Context) (s : State) : State :=
  let n := s.recorder.record.number
  let slots := countedSlots s c.segment.composition
  let pairs := slots.map (fun i => (i, (bankGet s.licences i).keyId))
  let lic := bankMap (fun x => if countable c.segment.composition n x then x.countedIn n else x) s.licences
  let s1 := feedRecord (fun r => { r with
    countTime := if r.counted then r.countTime else some (boothNow s)
    counted := true
    countedLicences := r.countedLicences ++ pairs }) (s.withLicences lic)
  raise .counted slots.length c.played s1

/-! ### Loading (R83, R84) -/

/-- The 48 bytes the key-wrap function yields for a blob (R83). -/
def unwrapped (blob : List Byte) : BitVec 384 :=
  Config.keyWrap Config.deviceKey (BitVec.ofNat 384 (fromBe blob))

/-- The content key of a blob that unwraps to the key id carried (R83): bytes 0-15 of the result, where bytes 32-35
equal the wrap check constant and bytes 16-31 the key id. -/
def unwrapKey (blob : List Byte) (keyId : Id128) : Option Id128 :=
  let u := unwrapped blob
  if u.extractLsb' 96 32 = Config.wrapCheck ∧ u.extractLsb' 128 128 = keyId then some (u.extractLsb' 256 128)
  else none

/-- The lowest EMPTY slot (R84). -/
def lowestEmpty (lic : Vector Licence 64) : Option Nat :=
  (List.range 64).find? (fun i => (bankGet lic i).state == .empty)

end Sys2Proof.Machine
end

