-- ==== Sys2Proof/Machine/Pace.lean ====
section
/-! DEFINITION. Free room (R52, R119), PACE cells (R55, R56) and the booth clock divider, whose seconds form one in
IDLE (R94). -/

namespace Sys2Proof.Machine

/-! ### Free room and PACE cells -/

/-- The number of buffers of a picture or sound slot (R52). -/
def bufferCount (slot : Nat) : Nat := if slot < 2 then 8 else 12

/-- Free buffers of a slot: not those of queued units, nor one held by a discarded unit still unpacked (R52). -/
def freeBuffers (s : State) (slot : Nat) : Nat :=
  bufferCount slot - (bankGet s.track.queues slot).length -
    (match s.engine with
     | some j => if j.abandoned && j.slot == slot then 1 else 0
     | none => 0)

/-- Store room held by a freed resource still unpacked: entries and bytes (R123). -/
def heldRoom (s : State) : Nat × Nat :=
  match s.engine with
  | some j => if j.abandoned && decide (4 ≤ j.slot) then (1, j.heldBytes) else (0, 0)
  | none => (0, 0)

/-- Free resource entries and free bytes of the text store (R119). -/
def freeEntries (s : State) : Nat := Config.storeEntries - s.text.store.length - (heldRoom s).1
def freeBytes (s : State) : Nat :=
  Config.storeBytes - (s.text.store.map (·.storedLen)).sum - (heldRoom s).2

/-- The showing number of the showing in progress, 0 in IDLE (R55, R178). -/
def showingOrIdle (s : State) : Nat := if s.seq.state = .idle then 0 else s.recorder.record.number

/-- A PACE cell formed, in place of one still waiting (R55, R56). -/
def formPace (s : State) : State :=
  s.withLane { s.lane with pace := some {
    state := s.seq.state
    seg := s.seq.seg
    offset := s.seq.offset
    showing := showingOrIdle s
    freeP0 := freeBuffers s 0
    freeP1 := freeBuffers s 1
    freeS0 := freeBuffers s 2
    freeS1 := freeBuffers s 3
    freeEntries := freeEntries s
    freeBytes := freeBytes s } }

/-! ### The booth clock divider (R94) -/

/-- The booth seconds of a booth second: raised by 1 while SET, staying at the top (R94). -/
def BoothTime.tickSecond (c : BoothTime) : BoothTime :=
  { c with seconds := if c.isSet then addTo top32 c.seconds 1 else c.seconds }

/-- What a booth second does while main power is present: the lapse check (R93) and, in IDLE, a PACE cell (R55). -/
def boothSecondActs (s : State) : State :=
  let s1 := lapseCheck s
  if s1.seq.state = .idle then formPace s1 else s1

/-- The clock after one step of the divider (R94): the fraction rises, or passes 255 and the step is a second. -/
def BoothTime.step (c : BoothTime) : BoothTime :=
  if 255 ≤ c.fraction then { c.tickSecond with fraction := 0 } else { c with fraction := c.fraction + 1 }

/-- In PAUSED the pause steps rise and the limit is tested (R21). -/
def pauseStep (s : State) : State :=
  if s.seq.state = .paused then
    s.withSeq ({ s.seq with pauseSteps := s.seq.pauseSteps + 1 } : Sequencer).testLimit
  else s

/-- One step of the divider (R94, R21), and a booth second's acts where it is one. With main power absent only the
clock runs (R191). -/
def dividerTick (s : State) : State :=
  let s1 := s.withClock s.clock.step
  if s1.supplies.main then (if 255 ≤ s.clock.fraction then boothSecondActs (pauseStep s1) else pauseStep s1) else s1

end Sys2Proof.Machine
end

