-- ==== Sys2Proof/Machine/Sound.lean ====
section
/-! DEFINITION. The Sound Engine: profiles coming into force (R103, R104), slot statuses and ramps (R99, R109,
R110), fades (R111), the output sample (R112 to R115) and the delay rings (R116, R117). -/

namespace Sys2Proof.Machine

/-! ### Targets and steps (R106 to R108) -/

/-- The master target: the fader law at the fader position, or 0 while muted (R106). -/
def SoundEngine.masterTarget (q : SoundEngine) : Nat := if q.mute then 0 else bankGet q.law q.fader

/-- One step of at most 64 toward a target, taken whole within 64 of it (R108). -/
def stepToward (value target : Nat) : Nat :=
  if value ≤ target then (if target - value ≤ 64 then target else value + 64)
  else if value - target ≤ 64 then target
  else value - 64

/-- The master gain and every current trim stepped toward their targets (R108). -/
def SoundEngine.stepGains (q : SoundEngine) : SoundEngine :=
  { q with
    master := stepToward q.master q.masterTarget
    trims := bankOf 18 (fun i => stepToward (bankGet q.trims i) (bankGet q.working.trims i)) }

/-! ### Rate and profile changes (R98, R104, R117) -/

/-- Every sample of every ring set to 0; the write index kept (R117). -/
def SoundEngine.clearRings (q : SoundEngine) : SoundEngine := { q with rings := Vector.replicate 18 [] }

/-- The old route of each output whose route the new profile changes (R104 part 2). -/
def routeSwitches (old new : Profile) : Vector (Option Route) 18 :=
  bankOf 18 (fun i => if bankGet old.routes i = bankGet new.routes i then none else some (bankGet old.routes i))

/-- Profile p comes into force at an output rate, in the three parts of R104: the trims' targets are the working
copy's; outputs whose route differs begin a switch; and the delay is computed anew, the rings being cleared where
it or the output rate changes (R98, R116, R117). -/
def SoundEngine.change (p : Nat) (rate : SampleRate) (q : SoundEngine) : SoundEngine :=
  let new := bankGet q.profiles p
  let d := delaySamples new.syncDelay rate
  let q1 := { q with
    inForce := p
    working := new
    rate := rate
    delay := d
    oldRoutes := routeSwitches q.working new
    switchCount := 0 }
  if d ≠ q.delay ∨ rate ≠ q.rate then q1.clearRings else q1

/-- The profile part of a boundary that does not end the showing (R103): a new segment's profile comes into force
and any pending selection is dropped; else a pending selection comes into force and is cleared. -/
def SoundEngine.boundaryProfile (newSegment : Option Segment) (q : SoundEngine) : SoundEngine :=
  match newSegment with
  | some g => { q.change g.profile g.srate with pendingSel := none }
  | none =>
    match q.pendingSel with
    | some p => { q.change p q.rate with pendingSel := none }
    | none => q

/-! ### Slot statuses (R99, R109, R110) -/

/-- A slot as a unit begins, SOUNDING or SILENT. -/
def SoundSlot.begin (sounding : Bool) (x : SoundSlot) : SoundSlot := { x with before := x.now, now := sounding }

/-- A unit begins with the statuses given (R99); its sample instants are numbered from 0 (R98). -/
def SoundEngine.beginUnit (s0 s1 : Bool) (q : SoundEngine) : SoundEngine :=
  { q with s0 := q.s0.begin s0, s1 := q.s1.begin s1, instant := 0, rampCount := 0 }

/-- The showing ends at a boundary: a SILENT stretch begins and the pending selection is cleared (R103, R110). -/
def SoundEngine.endShowing (q : SoundEngine) : SoundEngine := { q.beginUnit false false with pendingSel := none }

/-- A ramp-down is in progress: a slot SOUNDING before and SILENT now, within 64 instants (R110). -/
def SoundEngine.rampingDown (q : SoundEngine) : Bool :=
  decide (q.rampCount < 64) && ((q.s0.before && !q.s0.now) || (q.s1.before && !q.s1.now))

/-- CUE SHOW accepted (R98, R99, R103, R110, R111, R115): the first CUED unit is SILENT, after a ramp-down in
progress has run to its end; the first segment's rate and profile come into force. -/
def SoundEngine.cueShow (g : Segment) (q : SoundEngine) : SoundEngine :=
  let q1 := (q.change g.profile g.srate)
  let q2 := { q1 with pendingSel := none, instant := 0, clipReported := false }
  if q.rampingDown then q2
  else { q2 with
    s0 := { q2.s0 with before := false, now := false }
    s1 := { q2.s1 with before := false, now := false }
    rampCount := 64
    heldFade := 256 }

/-! ### Input samples (R99, R109, R113) -/

/-- A sample of a play store: channel c of sample i, 0 past the unit's channels (R99). -/
def PlayStore.sample (p : PlayStore) (i c : Nat) : Int :=
  if c < p.channels then p.samples.getD (i * p.channels + c) 0 else 0

/-- The held sample of a channel: the last of the play store, 0 where it is empty (R99). -/
def SoundSlot.heldSample (x : SoundSlot) (c : Nat) : Int :=
  match x.store with
  | some p => p.sample (p.samplesPerUnit - 1) c
  | none => 0

/-- The slot factor at instant k of the unit that begins (R109). -/
def slotFactor (before now : Bool) (k : Nat) : Nat :=
  match before, now with
  | true, true => 256
  | true, false => if k < 64 then 4 * (63 - k) else 0
  | false, true => if k < 64 then 4 * (k + 1) else 256
  | false, false => 0

/-- The input sample of a channel of a slot at instant i of the unit, k instants after the status change (R109). -/
def SoundSlot.input (x : SoundSlot) (i k c : Nat) : Int :=
  match x.now with
  | true =>
    match x.store with
    | some p => p.sample i c
    | none => 0
  | false => if x.before && decide (k < 64) then x.heldSample c else 0

/-! ### Ramp factors (R111, R112) -/

/-- The fade factor of the sample of index s of a segment of n samples per unit (R37, R111). -/
def fadeFactor (g : Segment) (spu s : Nat) : Nat :=
  let total := g.duration * spu
  let q := total - s - 1
  let nIn := g.fadeIn * spu
  let nOut := g.fadeOut * spu
  let fIn := if s < nIn then 256 * s / nIn else 256
  let fOut := if q < nOut then 256 * q / nOut else 256
  min fIn fOut

/-- The route an output uses: the old one for the first 64 instants of a switch (R104). -/
def SoundEngine.routeInUse (q : SoundEngine) (i : Nat) : Route :=
  match bankGet q.oldRoutes i with
  | some r => if q.switchCount < 64 then r else bankGet q.working.routes i
  | none => bankGet q.working.routes i

/-- The route factor of an output (R112). -/
def SoundEngine.routeFactor (q : SoundEngine) (i : Nat) : Nat :=
  match bankGet q.oldRoutes i with
  | some _ =>
    if q.switchCount < 64 then 4 * (63 - q.switchCount)
    else if q.switchCount < 128 then 4 * (q.switchCount - 63)
    else 256
  | none => 256

/-- The continuity factor of an output (R112): the lesser of its route factor and its slot's factor. -/
def SoundEngine.continuity (q : SoundEngine) (i : Nat) : Nat :=
  match q.routeInUse i with
  | .none => q.routeFactor i
  | .main _ => min (q.routeFactor i) (slotFactor q.s0.before q.s0.now q.rampCount)
  | .narration _ => min (q.routeFactor i) (slotFactor q.s1.before q.s1.now q.rampCount)

/-- The input sample of an output (R113). -/
def SoundEngine.inputOf (q : SoundEngine) (i : Nat) : Int :=
  match q.routeInUse i with
  | .none => 0
  | .main c => q.s0.input q.instant q.rampCount c
  | .narration c => q.s1.input q.instant q.rampCount c

/-! ### The output sample (R114, R115) -/

/-- The limits of a signed 24-bit sample. -/
def sampleMax : Int := 8388607
def sampleMin : Int := -8388608

/-- Stages 1 to 4 of R114: trim, master and ramp, each product exact and each division rounding half up with the
floor toward minus infinity. -/
def stage4 (x t m r : Int) : Int :=
  let b := (x * t + 8192) / 16384
  let c := (b * m + 8192) / 16384
  (c * r + 128) / 256

/-- Stage 5 of R114: the clamp to 24 bits. -/
def clamp24 (d : Int) : Int := if d < sampleMin then sampleMin else if sampleMax < d then sampleMax else d

/-- The master an output uses (R108): the master gain on O0-O15, 16,384 on O16 and O17. -/
def SoundEngine.masterOf (q : SoundEngine) (i : Nat) : Nat := if i < 16 then q.master else 16384

/-- The stage 4 result of an output, with the fade factor of the instant (R112, R114). -/
def SoundEngine.made (q : SoundEngine) (fade i : Nat) : Int :=
  stage4 (q.inputOf i) ((bankGet q.trims i : Nat) : Int) ((q.masterOf i : Nat) : Int) ((fade * q.continuity i / 256 : Nat) : Int)

/-- The place of the ring that is read (R116). -/
def SoundEngine.readIndex (q : SoundEngine) : Nat :=
  (q.writeIndex + Config.ringLength - q.delay) % Config.ringLength

/-- The counters of the instant moved on: the instant's number while the unit clock runs, the ramp and the route
switches (R98, R104, R109). -/
def SoundEngine.advance (running : Bool) (q : SoundEngine) : SoundEngine :=
  { q with
    instant := if running then q.instant + 1 else q.instant
    rampCount := min 64 (q.rampCount + 1)
    switchCount := min 128 (q.switchCount + 1)
    oldRoutes := if 127 ≤ q.switchCount then Vector.replicate 18 none else q.oldRoutes }

/-- A sample instant of the Sound Engine once its gains have stepped (R112 to R116): the samples made enter their
rings at the write index, the rings' samples of the delay in force are sent, and the write index advances. -/
def SoundEngine.emit (running : Bool) (fade : Nat) (q : SoundEngine) : SoundEngine :=
  let rings := bankOf 18 (fun i => ringSet (bankGet q.rings i) q.writeIndex (clamp24 (q.made fade i)))
  ({ q with
    heldFade := fade
    rings := rings
    out := bankOf 18 (fun i => ringGet (bankGet rings i) q.readIndex)
    writeIndex := (q.writeIndex + 1) % Config.ringLength } : SoundEngine).advance running

/-- Samples per unit of the segment in the context; 0 where there is none. -/
def contextSamples (q : Sequencer) : Nat :=
  match q.ctx with
  | some c => samplesPerUnit c.segment.rate c.segment.srate
  | none => 0

/-- The fade factor of the next sample instant: that of its sample index in a PLAYING unit, else the held fade
factor (R111). -/
def instantFade (s : State) : Nat :=
  match s.seq.ctx with
  | some c =>
    if s.seq.state = .playing then
      let spu := samplesPerUnit c.segment.rate c.segment.srate
      fadeFactor c.segment spu (s.seq.offset * spu + s.sound.instant)
    else s.sound.heldFade
  | none => s.sound.heldFade

/-- A clip handed to the Showing Recorder, with CLIP where it is the first of its segment; a clip while no showing
is in progress is neither counted nor reported (R115). -/
def handClip (d : Int) (s : State) (i : Nat) : State :=
  if s.recorder.status = .opened then
    let s1 := countClip s
    if s1.sound.clipReported then s1
    else raise .clip i (if d < sampleMin then 1 else 0) (s1.withSound { s1.sound with clipReported := true })
  else s

/-- A sample instant of the whole part (R98, R108, R114 to R116). The clips of one instant are handed on in ascending
output number, so that the lowest output is the segment's first clip: the model's choice (assumption log 40). -/
def sampleTick (s : State) : State :=
  let q := s.sound.stepGains
  let fade := instantFade s
  let clips := (List.range 18).filter (fun i => decide (q.made fade i < sampleMin) || decide (sampleMax < q.made fade i))
  let s1 := clips.foldl (fun s i => handClip (q.made fade i) s i) s
  s1.withSound { q.emit s.seq.clockRunning fade with clipReported := s1.sound.clipReported }

/-- Sound units concealed at a boundary (R100): S0's, and S1's where the profile in force routes an output from a
narration channel. -/
def SoundEngine.countsNarration (q : SoundEngine) : Bool :=
  q.working.routes.toList.any (fun r => match r with | .narration _ => true | .main _ => false | .none => false)

/-- The delay and working copy of profile 0 at 48,000 Hz, taken at a start or reset (R103, R118). -/
def SoundEngine.restart (q : SoundEngine) : SoundEngine :=
  let p := bankGet q.profiles 0
  { State.coldSound with
    profiles := q.profiles
    law := q.law
    fader := q.fader
    trims := p.trims
    working := p
    delay := delaySamples p.syncDelay .r48k }

end Sys2Proof.Machine
end

