-- ==== Sys2Proof/Machine/Lines.lean ====
section
/-! DEFINITION. The Line Controller: output lines (R142 to R147), input lines, captures and their actions (R148 to
R152), and the line millisecond (R141). -/

namespace Sys2Proof.Machine

/-! ### Output lines -/

/-- The level an output line's pin is driven to (R142): high for ACTIVE, or for INACTIVE on an ACTIVE_LOW line. -/
def OutLine.pinHigh (x : OutLine) : Bool := x.active != x.config.activeLow

/-- What became of an action (R146): APPLIED 0, IGNORED 1, BUSY 2. -/
inductive Disposition where
  | applied | ignored | busy
deriving DecidableEq, Repr

/-- A line INACTIVE and IDLE. -/
def OutLine.rest (x : OutLine) : OutLine := { x with active := false, activity := .idle, spanRemaining := 0 }

/-- A line ACTIVE for a span of n ms. -/
def OutLine.turnOn (n : Nat) (x : OutLine) : OutLine := { x with active := true, activity := .on, spanRemaining := n }

/-- The gate input's accepted level equals the stop level (R145 step 2). -/
def gateStops (inputs : Vector InLine 8) (c : OutConfig) : Bool :=
  match c.gate with
  | none => false
  | some (i, level) => (bankGet inputs i).accepted == level

/-- The start of a train's pulse: the gate is checked, and the train ends or the line goes ON (R145 step 2). -/
def OutLine.trainPulse (inputs : Vector InLine 8) (x : OutLine) : OutLine :=
  if gateStops inputs x.config then x.rest else x.turnOn x.config.onTime

/-- A TRIGGER taken by an IDLE pulse or train (R144, R145). -/
def OutLine.trigger (inputs : Vector InLine 8) (x : OutLine) : OutLine :=
  if x.config.mode = .pulse then
    if 0 < x.config.delay then { x with active := false, activity := .delaying, spanRemaining := x.config.delay }
    else x.turnOn x.config.width
  else ({ x with pulsesDone := 0 } : OutLine).trainPulse inputs

/-- An action applied to an output line (R143 to R146). -/
def OutLine.act (inputs : Vector InLine 8) (a : LineAct) (x : OutLine) : OutLine × Disposition :=
  match x.config.mode with
  | .off => (x, .ignored)
  | .level =>
    match a with
    | .set => ({ x with active := true }, .applied)
    | .clear => ({ x with active := false }, .applied)
    | .toggle => ({ x with active := !x.active }, .applied)
    | .trigger | .stop => (x, .ignored)
  | .pulse | .train =>
    match a with
    | .set | .clear | .toggle => (x, .ignored)
    | .trigger =>
      if x.activity = .idle then (x.trigger inputs, .applied)
      else ({ x with busyTriggers := addTo top16 x.busyTriggers 1 }, .busy)
    | .stop => (if x.activity = .idle then x else x.rest, .applied)

/-- A span ends: the line moves to its next activity (R144, R145 steps 3 and 4). -/
def OutLine.spanEnds (inputs : Vector InLine 8) (x : OutLine) : OutLine :=
  match x.activity with
  | .idle => x
  | .delaying => x.turnOn x.config.width
  | .on =>
    if x.config.mode = .train then
      let done := addTo top8 x.pulsesDone 1
      if x.config.count ≤ 254 ∧ done = x.config.count then { x.rest with pulsesDone := done }
      else { x with active := false, activity := .off, spanRemaining := x.config.offTime, pulsesDone := done }
    else x.rest
  | .off => x.trainPulse inputs

/-- The output line as reconfigured (R147): INACTIVE, IDLE, counts 0. -/
def OutLine.configured (c : OutConfig) : OutLine := State.restOutput c

/-- An action applied to output line n of the part (R143 to R146). -/
def lineAct (n : Nat) (a : LineAct) (s : State) : State × Disposition :=
  let r := (bankGet s.lines.outputs n).act s.lines.inputs a
  (s.withLines { s.lines with outputs := bankSet s.lines.outputs n r.1 }, r.2)

/-- A span end is due on an output line: a span in progress has no line millisecond left (assumption log 6). -/
def OutLine.spanDue (x : OutLine) : Bool := x.activity != .idle && x.spanRemaining == 0

/-- The due span end of output line n (R144, R145). -/
def takeSpanEnd (s : State) (n : Nat) : State :=
  let x := bankGet s.lines.outputs n
  if x.spanDue then
    s.withLines { s.lines with outputs := bankSet s.lines.outputs n (x.spanEnds s.lines.inputs) }
  else s

/-! ### Input lines -/

/-- The sampled level: the pin as last sampled, read through the polarity (R148). -/
def InLine.sampled (x : InLine) : Bool := x.pinHigh != x.config.activeLow

/-- The edges an edge setting selects (R148). -/
def EdgeSetting.selects (e : EdgeSetting) (rising : Bool) : Bool :=
  match e with
  | .none => false
  | .rising => rising
  | .falling => !rising
  | .both => true

/-- A sample of the pin (R148): the stable count returns to 0 where the level agrees with the accepted one, and else
rises; at debounce + 1 an edge is due (assumption log 6). -/
def InLine.sample (pinHigh : Bool) (x : InLine) : InLine :=
  let y := { x with pinHigh := pinHigh }
  if y.sampled = y.accepted then { y with stable := 0 }
  else { y with stable := min (y.config.debounce + 1) (y.stable + 1) }

/-- An edge is due: the new level has been seen on debounce + 1 samples in a row (R148). -/
def InLine.edgeDue (x : InLine) : Bool := x.sampled != x.accepted && decide (x.config.debounce + 1 ≤ x.stable)

/-- A selected edge written to the capture record (R151). -/
def InLine.captured (c : Capture) (x : InLine) : InLine :=
  { x with capture := some c, overwritten := x.overwritten || x.unread, unread := true }

/-- The capture of an edge now (R151). -/
def captureNow (rising level : Bool) (s : State) : Capture where
  rising := rising
  level := level
  state := s.seq.state
  showing := showingOrIdle s
  seg := s.seq.seg
  offset := s.seq.offset
  time := boothNow s

/-- Input line n replaced. -/
def setInput (n : Nat) (x : InLine) (s : State) : State :=
  s.withLines { s.lines with inputs := bankSet s.lines.inputs n x }

/-- The outcome code of R59. -/
def ReplyOutcome.code : ReplyOutcome → Nat
  | .ok => 0 | .queueFull => 1 | .badKind => 2 | .badParam => 3 | .noSuchIndex => 4 | .stale => 5 | .inUse => 6
  | .state => 7 | .tableFull => 8 | .duplicate => 9 | .badWrap => 10 | .bound => 11 | .clockUnset => 12
  | .clockBackward => 13 | .licence => 14 | .badShow => 15 | .held => 16

/-- A control action of input n (R150): one its checks would answer OK takes effect; a refused one is dropped with
LINE_EDGE carrying the refusal's outcome code. -/
def controlAction (detail : Nat) (r : ReplyOutcome × State) : State :=
  if r.1 = .ok then r.2 else raise .lineEdge detail r.1.code r.2

/-- The action of a selected edge (R150). -/
def inputAction (n : Nat) (rising : Bool) (a : InAction) (s : State) : State :=
  let detail := n * 2 + (if rising then 0 else 1)
  match a with
  | .none => s
  | .go => controlAction detail (takeGo s)
  | .pause => controlAction detail (takePause s)
  | .resume => controlAction detail (takeResume s)
  | .stop => controlAction detail (takeStop s)
  | .flag x y z => setFlagsBy x y z s
  | .report => raise .lineEdge detail 0 s

/-- An accepted edge of input n, in the order of R149: held set, capture, action. -/
def acceptEdge (n : Nat) (s : State) : State :=
  let x := bankGet s.lines.inputs n
  let rising := x.sampled
  let s1 := setInput n { x with accepted := rising, stable := 0 } s
  let s2 := if x.config.held then (if rising then joinHeld n s1 else leaveHeld n s1) else s1
  if x.config.edge.selects rising then
    let y := bankGet s2.lines.inputs n
    inputAction n rising x.config.action (setInput n (y.captured (captureNow rising rising s2)) s2)
  else s2

/-- The due edge of input n. -/
def takeEdge (s : State) (n : Nat) : State :=
  if (bankGet s.lines.inputs n).edgeDue then acceptEdge n s else s

/-- An input line reconfigured (R152): the accepted level becomes the latest sample read through the new polarity,
with no edge accepted, and the held inputs set is brought into line. -/
def configureInput (n : Nat) (c : InConfig) (s : State) : State :=
  let x := { bankGet s.lines.inputs n with config := c, stable := 0 }
  let y := { x with accepted := x.sampled }
  let s1 := setInput n y s
  if c.held && y.accepted then (if inHeld n s1 then s1 else joinHeld n s1)
  else if inHeld n s1 then leaveHeld n s1 else s1

/-! ### The line millisecond (R141) and the lane timer (R42) -/

/-- The lane has had no valid cell for 100 line milliseconds (R42). -/
def LinkReceiver.downDue (k : LinkReceiver) : Bool := k.laneUp && decide (100 ≤ k.laneTimer)

/-- The due LANE_DOWN: the lane goes DOWN and LINK_STATE is raised (R42). -/
def takeLaneDown (s : State) : State :=
  if s.link.downDue then raise .linkState 0 0 (s.withLink { s.link with laneUp := false }) else s

/-- The span ends, edges and LANE_DOWN that the last line millisecond made due and no command has taken yet
(assumption log 6). -/
def settleDue (s : State) : State :=
  takeLaneDown ((List.range 8).foldl takeEdge ((List.range 8).foldl takeSpanEnd s))

/-- A span in progress one line millisecond shorter. -/
def OutLine.countDown (x : OutLine) : OutLine :=
  if x.activity = .idle then x else { x with spanRemaining := x.spanRemaining - 1 }

/-- The counts of a line millisecond (R42, R141, R148): spans shorten, pins are sampled, the lane timer rises. -/
def countLineMs (pins : Mask8) (s : State) : State :=
  (s.withLines {
    outputs := bankMap OutLine.countDown s.lines.outputs
    inputs := bankOf 8 (fun i => (bankGet s.lines.inputs i).sample (pins.getLsbD i))
    msNumber := (s.lines.msNumber + 1) % 1000 }).withLink
      { s.link with laneTimer := min 100 (s.link.laneTimer + 1) }

/-- A line millisecond: what was left due is settled, then the counts move. -/
def lineMillisecondTick (pins : Mask8) (s : State) : State := countLineMs pins (settleDue s)

end Sys2Proof.Machine
end

