-- ==== Sys2Proof/Machine/Slots.lean ====
section
/-! DEFINITION. What the Track Assembler and the Text Engine share: the assembly state of a slot (R46), the link
counters (R43), discards from the track queues (R53) and the engine's job marked for abandonment (R65). -/

namespace Sys2Proof.Machine

/-- The assembly state of a slot (R46). -/
def assemblyOf (s : State) (slot : Nat) : Assembly := (bankGet s.track.slots slot).assembly

/-- The assembly state of a slot set. -/
def setAssembly (slot : Nat) (a : Assembly) (s : State) : State :=
  s.withTrack { s.track with slots := bankSet s.track.slots slot { bankGet s.track.slots slot with assembly := a } }

/-- The track queue of a picture or sound slot. -/
def queueOf (s : State) (slot : Nat) : List UnitRec := bankGet s.track.queues slot

/-- The track queue of a slot set. -/
def setQueue (slot : Nat) (q : List UnitRec) (s : State) : State :=
  s.withTrack { s.track with queues := bankSet s.track.queues slot q }

/-- One or more link counters raised (R43). -/
def bump (f : LinkCounters → LinkCounters) (s : State) : State := s.withLink { s.link with counters := f s.link.counters }

/-- The late count raised by n, and the refused count by 1 (R43). -/
def countLate (n : Nat) (s : State) : State := bump (fun c => { c with late := addTo top16 c.late n }) s
def countRefused (s : State) : State := bump (fun c => { c with refused := addTo top16 c.refused 1 }) s

/-- The engine's job marked for abandonment where it is one of the units named (R65); `bytes` is the store room the
unit holds until then. -/
def markAbandoned (is : UnpackJob → Bool) (bytes : Nat) (s : State) : State :=
  match s.engine with
  | some j => if is j && !j.abandoned then s.withEngine (some { j with abandoned := true, heldBytes := bytes }) else s
  | none => s

/-- A queued unit is the one the job works on. -/
def UnpackJob.works (j : UnpackJob) (slot : Nat) (u : UnitRec) : Bool :=
  j.slot == slot && j.seg == u.seg && j.unit == u.unit && u.state == .unpacking

/-- Units leave a slot's queue (R53), the rest staying: an ASSEMBLING one leaves its slot SKIPPING, one UNPACKING
leaves the engine to abandon it. A discard is counted by the caller. -/
def leaveQueue (slot : Nat) (out rest : List UnitRec) (s : State) : State :=
  let s1 := setQueue slot rest s
  let s2 := if out.any (fun u => u.state == .assembling) then setAssembly slot .skipping s1 else s1
  markAbandoned (fun j => out.any (j.works slot)) 0 s2

/-- Queued units of a slot discarded (R53). -/
def dropUnits (slot : Nat) (gone : UnitRec → Bool) (s : State) : State :=
  leaveQueue slot ((queueOf s slot).filter gone) ((queueOf s slot).filter (fun u => !gone u)) s

/-- Queued units of a slot discarded as LATE, each counted once (R53). -/
def discardLate (slot : Nat) (gone : UnitRec → Bool) (s : State) : State :=
  countLate ((queueOf s slot).filter gone).length (dropUnits slot gone s)

/-- Every queue's units of one entry discarded as LATE: an entry skipped, or the member not played (R53). -/
def discardEntry (s : State) (i : Nat) : State :=
  (List.range 4).foldl (fun s slot => discardLate slot (fun u => u.seg == i) s) s

/-- The boundary discard of one slot (R53): units before the due position that stood during the unit that has
ended, judged by the comparison as it stood then (`old`). -/
def boundaryDiscard (old : State) (s : State) (slot : Nat) : State :=
  discardLate slot (fun u => lateFor old slot (u.seg, .unit u.unit)) s

/-- The further discard of P1 in a mono segment: every P1 unit of the current segment and of those before it (R74). -/
def monoDiscard (s : State) : State :=
  match s.seq.ctx with
  | some c => if c.segment.stereo then s else discardLate 1 (fun u => lateFor s 1 (u.seg, .unit u.unit)) s
  | none => s

/-- The end of a showing for the Track Assembler (R54): every queue emptied uncounted, every OPEN slot SKIPPING. -/
def emptyQueues (s : State) : State :=
  let s1 := (List.range 4).foldl (fun s slot => dropUnits slot (fun _ => true) s) s
  (List.range 6).foldl (fun s slot => if assemblyOf s slot = .opened then setAssembly slot .skipping s else s) s1

end Sys2Proof.Machine
end

