-- ==== Sys2Proof/Machine/Text.lean ====
section
/-! DEFINITION. The Text Engine and the Caption Line: the text store (R119 to R123), cue lists and tables (R124 to
R126), display slots and opacity (R127 to R132), and the caption messages (R133 to R138). -/

namespace Sys2Proof.Machine

/-- The text store replaced. -/
def setStore (l : List Resource) (s : State) : State := s.withText { s.text with store := l }

/-- A resource has the name given (R119). -/
def Resource.named (r : Resource) (seg slot id : Nat) : Bool := r.seg == seg && r.slot == slot && r.id == id

/-- The resource of a name, where the store holds one. -/
def findResource (s : State) (seg slot id : Nat) : Option Resource := s.text.store.find? (·.named seg slot id)

/-! ### Freeing (R123) -/

/-- A resource is the one the job works on. -/
def UnpackJob.worksOn (j : UnpackJob) (r : Resource) : Bool :=
  j.slot == r.slot && j.seg == r.seg && j.unit == r.id && r.state == .unpacking

/-- Resources freed (R123): entries and bytes return at once, but those of one UNPACKING when the engine abandons
it (R65); one still ASSEMBLING leaves its slot SKIPPING. -/
def freeResources (gone : Resource → Bool) (s : State) : State :=
  let out := s.text.store.filter gone
  let s1 := setStore (s.text.store.filter (fun r => !gone r)) s
  let skip := fun (s : State) (slot : Nat) =>
    if out.any (fun r => r.slot == slot && r.state == .assembling) then setAssembly slot .skipping s else s
  let held := (out.filter (fun r => r.state == .unpacking)).map (·.storedLen)
  markAbandoned (fun j => out.any j.worksOn) held.sum (skip (skip s1 4) 5)

/-! ### The caption ring (R133 to R135) -/

/-- Free space of the caption ring (R133). -/
def captionFree (s : State) : Nat := Config.captionRing - s.caption.ring.length

/-- A message joins the ring. -/
def pushCaption (m : List Byte) (s : State) : State := s.withCaption { s.caption with ring := s.caption.ring ++ m }

/-- A SHOW message (R61); the flags byte has bit 0 set when the text is truncated. -/
def showMessage (number : Nat) (truncated : Bool) (text : List Byte) : List Byte :=
  [2] ++ be 2 number ++ [if truncated then 1 else 0] ++ be 1 text.length ++ text ++ [3]

/-- A CLEAR message (R61). -/
def clearMessage (number : Nat) : List Byte := [2] ++ be 2 number ++ [4]

/-- A cue's SHOW message has joined the ring: its shown flag is set, the first time adding to cues shown (R134). -/
def markShown (d : Displayed) (s : State) : Displayed × State :=
  ({ d with shown := true }, if d.shown then s else countCueShown s)

/-- A SHOW message queued for a caption cue (R134): whole, truncated to the free space, or dropped. The rows of R134 are
taken from the top: a SHOW of 7 bytes that meets 7 free bytes joins whole, the model's choice (assumption log 46). -/
def queueShow (d : Displayed) (s : State) : Displayed × State :=
  let n := d.cue.text.length
  let f := captionFree s
  if 6 + n ≤ f then markShown d (pushCaption (showMessage d.cue.number false d.cue.text) s)
  else if 8 ≤ f then
    markShown d (raise .captionTruncated d.cue.number (f - 6)
      (pushCaption (showMessage d.cue.number true (d.cue.text.take (f - 6))) s))
  else (d, raise .cueDropped 5 d.cue.number (countCueDropped s))

/-- A CLEAR message queued for a cue, or dropped and counted (R135). -/
def queueClear (number : Nat) (s : State) : State :=
  if 4 ≤ captionFree s then pushCaption (clearMessage number) s else countCueDropped s

/-- CLEAR queued for a cue of the caption display list that is not withdrawn (R136 to R138). -/
def clearIfShowing (s : State) (d : Displayed) : State := if d.withdrawn then s else queueClear d.cue.number s

/-- The caption display list replaced. -/
def setCaptions (l : List Displayed) (s : State) : State := s.withText { s.text with captions := l }

/-- Entering PAUSED: CLEAR for each cue not withdrawn, in list order, and each withdrawn (R137). -/
def withdrawCaptions (s : State) : State :=
  setCaptions (s.text.captions.map (fun d => { d with withdrawn := true })) (s.text.captions.foldl clearIfShowing s)

/-- The resume boundary: SHOW again for each withdrawn cue, in list order, its withdrawn flag cleared (R137). -/
def reshowCaptions : List Displayed → State → List Displayed × State
  | [], s => ([], s)
  | d :: l, s =>
    let r := if d.withdrawn then queueShow { d with withdrawn := false } s else (d, s)
    let t := reshowCaptions l r.2
    (r.1 :: t.1, t.2)

/-! ### Cue lists (R61, R122, R124) -/

/-- Read as 0 when absent. -/
def presentOr0 (present : Bool) (n : Nat) : Nat := if present then n else 0

/-- A cue record read, and whether every field lies in its range and its out is above its in (R61, R124). No in or out of
32 bits is outside its range: the model's choice (assumption log 48). -/
def readCue (slot : Nat) (p : List Byte) : Cue × Bool :=
  let flags := p.getD 10 0
  let c : Cue := {
    number := field p 0 2
    inPoint := field p 2 4
    outPoint := field p 6 4
    fadeIn := presentOr0 (flags.getLsbD 0) (byteAt p 11)
    fadeOut := presentOr0 (flags.getLsbD 0) (byteAt p 12)
    opacity := byteAt p 13
    region := presentOr0 (flags.getLsbD 1) (byteAt p 14)
    lineOffset := byteAt p 15
    image := if slot = 4 then field p 16 2 else 0
    text := if slot = 4 then [] else (p.drop 17).take (byteAt p 16) }
  (c, decide (c.number ≤ 1023) && decide (c.fadeIn ≤ 60) && decide (c.fadeOut ≤ 60) && decide (c.region ≤ 7) &&
    decide (c.lineOffset ≤ 15) && decide (c.inPoint < c.outPoint) &&
    (slot == 4 || (decide (1 ≤ byteAt p 16) && decide (byteAt p 16 ≤ 240))))

/-- The length of the cue record that a block begins with (R61). -/
def cueLength (slot : Nat) (p : List Byte) : Nat := if slot = 4 then 18 else 17 + byteAt p 16

/-- The records of a list, in order. -/
def readCues (slot : Nat) : Nat → List Byte → List (Cue × Bool)
  | 0, _ => []
  | n + 1, p => readCue slot p :: readCues slot n (p.drop (cueLength slot p))

/-- (in, cue number) above that of the last record kept (R124). -/
def cueAbove (last : Option (Nat × Nat)) (c : Cue) : Bool :=
  match last with
  | none => true
  | some (i, n) => decide (i < c.inPoint) || (i == c.inPoint && decide (n < c.number))

/-- The cues kept, in order, and the number of bad ones (R124). -/
def keepCues : Option (Nat × Nat) → List (Cue × Bool) → List Cue × Nat
  | _, [] => ([], 0)
  | last, (c, good) :: l =>
    if good && cueAbove last c then
      let r := keepCues (some (c.inPoint, c.number)) l
      (c :: r.1, r.2)
    else
      let r := keepCues last l
      (r.1, r.2 + 1)

/-- The cue table of a list's plaintext, and its bad cues (R124). -/
def listCues (slot : Nat) (p : List Byte) : List Cue × Nat := keepCues none (readCues slot (field p 2 2) (p.drop 4))

/-- Caption records that end exactly at the end of the block (R122). -/
def captionsFit : Nat → List Byte → Bool
  | 0, p => p.isEmpty
  | n + 1, p => decide (17 ≤ p.length) && decide (cueLength 5 p ≤ p.length) && captionsFit n (p.drop (cueLength 5 p))

/-- The kind of a resource's plaintext, absent where it is FORMAT (R122). -/
def resourceKind (slot id : Nat) (p : List Byte) : Option ResKind :=
  if p.length < 2 then none
  else
    match byteAt p 0 with
    | 1 =>
      if slot = 4 ∧ id = 0 ∧ 4 ≤ p.length ∧ field p 2 2 ≤ 1024 ∧ p.length = 4 + 18 * field p 2 2 then some .cueList
      else none
    | 2 => if slot = 4 ∧ 0 < id ∧ 2 < p.length then some .image else none
    | 3 =>
      if slot = 5 ∧ id = 0 ∧ 4 ≤ p.length ∧ field p 2 2 ≤ 1024 ∧ captionsFit (field p 2 2) (p.drop 4) = true then
        some .captionList
      else none
    | _ => none

/-! ### Display slots (R127 to R132) -/

/-- An image of the current segment, where it is READY. -/
def readyImage (s : State) (id : Nat) : Option Resource :=
  match findResource s s.seq.seg 4 id with
  | some r => if r.state = .ready ∧ r.kind = some .image then some r else none
  | none => none

/-- The lowest free display slot. -/
def freeDisplay (t : TextEngine) : Option Nat := (List.range 4).find? (fun i => (bankGet t.display i).isNone)

/-- A T0 cue admitted to the lowest free display slot, or dropped where all four are busy (R127); its image not
READY adds to missing resources (R129). -/
def admitT0 (s : State) (c : Cue) : State :=
  match freeDisplay s.text with
  | some i =>
    let s1 := s.withText { s.text with display := bankSet s.text.display i (some ⟨c, false, false⟩) }
    if (readyImage s c.image).isSome then s1 else countMissing s1
  | none => raise .cueDropped 4 c.number (countCueDropped s)

/-- A T1 cue joins the caption display list; unless it enters withdrawn, its SHOW message is queued (R136, R126). -/
def admitT1 (withdrawn : Bool) (s : State) (c : Cue) : State :=
  let r := if withdrawn then (⟨c, false, true⟩, s) else queueShow ⟨c, false, false⟩ s
  setCaptions (r.2.text.captions ++ [r.1]) r.2

/-- The comparator at a place of a table, or at no cue. -/
def comparatorAt (t : CueTable) (k : Nat) : Option Nat := if k < t.cues.length then some k else none

/-- The cues the comparator takes at reel unit u of a segment whose last is given (R127, R136): those whose in is at or
below u, in table order. One whose in lies at or beyond the last reel unit is never reached (R125); that this holds
against R127 and R136, which would take it as the last unit begins, is the model's choice (assumption log 42). -/
def takenCues (t : CueTable) (last u : Nat) : List Cue :=
  match t.comparator with
  | some k => (t.cues.drop k).takeWhile (fun c => decide (c.inPoint ≤ u) && decide (c.inPoint < last))
  | none => []

/-- The table with the comparator past the cues taken. -/
def CueTable.moved (t : CueTable) (last u : Nat) : CueTable :=
  match t.comparator with
  | some k => { t with comparator := comparatorAt t (k + (takenCues t last u).length) }
  | none => t

/-- The cues taken that are displayed: one whose out is also at or below u is passed. -/
def admitted (t : CueTable) (last u : Nat) : List Cue :=
  (takenCues t last u).filter (fun c => decide (u < c.outPoint))

/-- T0 at a boundary that begins the output of reel unit u of a segment whose last is given: release, then admission
(R127). -/
def runT0 (last u : Nat) (s : State) : State :=
  let freed := bankMap (fun d =>
    match d with
    | some x => if x.cue.outPoint ≤ u then none else some x
    | none => none) s.text.display
  let t := s.text.t0
  (admitted t last u).foldl admitT0 (s.withText { s.text with display := freed, t0 := t.moved last u })

/-- T1 at a boundary that begins the output of reel unit u of a segment whose last is given: release with CLEAR, the
withdrawn shown again at a resume, then admission with SHOW (R136, R137). -/
def runT1 (last u : Nat) (resumed : Bool) (s : State) : State :=
  let leaving := s.text.captions.filter (fun d => decide (d.cue.outPoint ≤ u))
  let staying := s.text.captions.filter (fun d => !decide (d.cue.outPoint ≤ u))
  let s1 := leaving.foldl clearIfShowing s
  let r := if resumed then reshowCaptions staying s1 else (staying, s1)
  let s2 := setCaptions r.1 r.2
  let t := s2.text.t1
  (admitted t last u).foldl (admitT1 false) (s2.withText { s2.text with t1 := t.moved last u })

/-- The in-ramp or out-ramp of a fade of n units, k units along it (R130). -/
def fadeRamp (n k : Nat) : Nat := if n = 0 ∨ n ≤ k then 255 else 255 * (k + 1) / (n + 1)

/-- The opacity of a cue at reel unit u (R130). -/
def opacityAt (c : Cue) (u : Nat) : Nat :=
  (min (fadeRamp c.fadeIn (u - c.inPoint)) (fadeRamp c.fadeOut (c.outPoint - 1 - u)) * c.opacity + 127) / 255

/-- The overlay entry of a display slot at reel unit u, where its cue's image is READY (R129, R132). -/
def overlayOf (s : State) (u i : Nat) : Option Overlay :=
  match bankGet s.text.display i with
  | some d =>
    match readyImage s d.cue.image with
    | some r => some ⟨d.cue.region, d.cue.lineOffset, d.cue.image, opacityAt d.cue u, r.content.drop 2⟩
    | none => none
  | none => none

/-- The overlay list for reel unit u, in ascending display slot (R132). -/
def overlayList (s : State) (u : Nat) : List Overlay := (List.range 4).filterMap (overlayOf s u)

/-- A display slot that gives an overlay entry has its shown flag set, the first time adding to cues shown (R132). -/
def markOverlay (u : Nat) (s : State) (i : Nat) : State :=
  match overlayOf s u i, bankGet s.text.display i with
  | some _, some d =>
    if d.shown then s
    else countCueShown
      (s.withText { s.text with display := bankSet s.text.display i (some { d with shown := true }) })
  | _, _ => s

/-! ### Loading (R125, R126) -/

/-- The READY list of the current segment for a text slot. -/
def readyList (s : State) (slot : Nat) : Option Resource :=
  match findResource s s.seq.seg slot 0 with
  | some r => if r.state = .ready then some r else none
  | none => none

/-- The slot is switched on in the segment context (R125). -/
def slotOn (g : Segment) (slot : Nat) : Bool := if slot = 4 then g.subtitles else g.captions

def tableOf (t : TextEngine) (slot : Nat) : CueTable := if slot = 4 then t.t0 else t.t1

def setTable (slot : Nat) (x : CueTable) (s : State) : State :=
  s.withText (if slot = 4 then { s.text with t0 := x } else { s.text with t1 := x })

/-- A slot's load at the first output boundary of its segment (R125). -/
def loadList (g : Segment) (slot : Nat) (s : State) : State :=
  if slotOn g slot then
    match readyList s slot with
    | some r =>
      let cues := listCues slot r.content
      countBadCues cues.2 (setTable slot
        ⟨cues.1, cues.1.findIdx? (fun c => decide (g.entryPoint < c.outPoint)), true⟩ s)
    | none => s
  else s

/-- The reel unit of the last unit of the current segment whose output has begun (R126): that in progress while
PLAYING, the one before the frozen unit while PAUSED. -/
def lastBegun (q : Sequencer) : Option Nat :=
  match q.ctx with
  | some c =>
    match q.state with
    | .playing => some (c.segment.entryPoint + q.offset)
    | .paused => if 0 < q.offset then some (c.segment.entryPoint + q.offset - 1) else none
    | .idle | .cued | .hold | .lead => none
  | none => none

/-- A late list loaded (R126): past cues removed and counted in RESOURCE_LATE, cues in display admitted at once,
withdrawn where the showing is PAUSED. This admission goes by the last unit begun, not by the comparator, so that a cue
whose in is the segment's last reel unit is admitted too: the model's choice (assumption log 42). -/
def lateLoad (slot c : Nat) (r : Resource) (s : State) : State :=
  let cues := listCues slot r.content
  let removed := (cues.1.filter (fun x => decide (x.outPoint ≤ c))).length
  let now := cues.1.filter (fun x => decide (x.inPoint ≤ c) && decide (c < x.outPoint))
  let s1 := countBadCues cues.2 (setTable slot
    ⟨cues.1, cues.1.findIdx? (fun x => decide (c < x.inPoint)), true⟩ s)
  let s2 := if slot = 4 then now.foldl admitT0 s1 else now.foldl (admitT1 (s.seq.state == .paused)) s1
  raise .resourceLate slot removed s2

/-- A list that has become READY (R122): loaded late where its segment is current and past its first output
boundary, its slot on and its table not loaded (R126). -/
def listReady (r : Resource) (s : State) : State :=
  match s.seq.ctx, lastBegun s.seq with
  | some c, some last =>
    if c.played = r.seg ∧ slotOn c.segment r.slot = true ∧ (tableOf s.text r.slot).loaded = false then
      lateLoad r.slot last r s
    else s
  | _, _ => s

/-! ### Segment end and showing end (R123, R128, R138) -/

/-- The caption and subtitle display of a segment ended: CLEAR for each caption not withdrawn, then the list, the
display slots, tables and comparators cleared (R128, R138). -/
def clearDisplays (s : State) : State :=
  let s1 := s.text.captions.foldl clearIfShowing s
  s1.withText { s1.text with
    t0 := .cleared
    t1 := .cleared
    display := Vector.replicate 4 none
    captions := [] }

/-- The boundary at which segment i ends (R123, R128, R138). -/
def textSegmentEnd (i : Nat) (s : State) : State := clearDisplays (freeResources (fun r => r.seg == i) s)

/-- A segment selected: freed are the resources of every entry before the member played (R29, R123), and of every entry
the selection passes. -/
def textSelection (c : Context) (s : State) : State :=
  freeResources (fun r => before s (r.seg, .start) (c.played, .start) || c.passes s.showList r.seg) s

/-- The end of a showing (R123, R138). -/
def textShowingEnd (s : State) : State := clearDisplays (freeResources (fun _ => true) s)

end Sys2Proof.Machine
end

