-- ==== Sys2Proof/Machine/Track.lean ====
section
/-! DEFINITION. The Link Receiver and the Track Assembler: the header check (R41), the lane (R42), sequence numbers
(R44, R45), unit assembly (R46 to R50) and resources (R51, R120, R121), and the request of a MANAGE cell (R172). -/

namespace Sys2Proof

/-! ### Header fields (R57) -/

def Cell.headerField (c : Cell) (i w : Nat) : Nat := Machine.field c.header.toList i w
def Cell.version (c : Cell) : Nat := c.headerField 0 1
def Cell.kind (c : Cell) : Nat := c.headerField 1 1
def Cell.markByte (c : Cell) : Byte := c.header.toList.getD 2 0
def Cell.unitStart (c : Cell) : Bool := c.markByte.getLsbD 7
def Cell.unitEnd (c : Cell) : Bool := c.markByte.getLsbD 6
def Cell.slot (c : Cell) : Nat := (c.markByte &&& 7#8).toNat
def Cell.segment (c : Cell) : Nat := c.headerField 3 1
def Cell.seqNumber (c : Cell) : Nat := c.headerField 4 2
def Cell.lengthField (c : Cell) : Nat := c.headerField 6 2
def Cell.unitNumber (c : Cell) : Nat := c.headerField 8 4
def Cell.checkField (c : Cell) : Nat := c.headerField 12 2

/-- The header check matches header bytes 12-13 (R41). -/
def Cell.checkOk (c : Cell) : Bool := (Machine.crc16 (c.header.toList.take 12)).toNat == c.checkField

/-- The cell is valid (R41): its header check matches and none of the conditions that fail a cell holds. -/
def Cell.valid (c : Cell) : Bool :=
  c.checkOk && c.version == 1 && decide (c.kind ≤ 3) && decide (c.lengthField ≤ 1024) &&
    c.lengthField == c.payload.length &&
    (c.kind != 1 || decide (c.slot ≤ 3)) &&
    (c.kind != 2 || ((c.slot == 4 || c.slot == 5) && decide (c.unitNumber ≤ 65535))) &&
    ((c.kind != 1 && c.kind != 2) || decide (c.segment ≤ 127)) &&
    (c.kind != 3 || decide (4 ≤ c.payload.length))

end Sys2Proof

namespace Sys2Proof.Machine

/-- A cell that fails R41: discarded, counted, and reported the first time (R43). -/
def headerError (s : State) : State :=
  let s1 := bump (fun c => { c with headerErrors := addTo top16 c.headerErrors 1 }) s
  if s.link.errorArmed then raise .linkError 1 0 (s1.withLink { s1.link with errorArmed := false }) else s1

/-- A valid cell restarts the lane timer and brings the lane UP (R42). A LANE_DOWN left due is taken first. -/
def laneValid (s : State) : State :=
  let s0 := takeLaneDown s
  let s1 := s0.withLink { s0.link with laneTimer := 0, laneUp := true }
  if s0.link.laneUp then s1 else raise .linkState 1 0 s1

/-! ### The open unit of a slot -/

/-- The units of a slot that are ASSEMBLING changed: at most one, the open unit (R46, R47). -/
def changeOpen (f : UnitRec → UnitRec) (slot : Nat) (s : State) : State :=
  setQueue slot ((queueOf s slot).map (fun u => if u.state = .assembling then f u else u)) s

/-- The resource of a text slot that is ASSEMBLING changed. -/
def changeOpenRes (f : Resource → Resource) (slot : Nat) (s : State) : State :=
  setStore (s.text.store.map (fun r => if r.slot = slot ∧ r.state = .assembling then f r else r)) s

/-- A unit with a defect, where it has none yet (R45). -/
def UnitRec.damaged (d : Defect) (u : UnitRec) : UnitRec := { u with defect := some (u.defect.getD d) }
def Resource.damaged (d : Defect) (r : Resource) : Resource := { r with defect := some (r.defect.getD d) }

/-- The open unit or resource of a slot takes a defect, where it has none yet (R45). -/
def damageOpen (d : Defect) (slot : Nat) (s : State) : State :=
  if slot < 4 then changeOpen (·.damaged d) slot s else changeOpenRes (·.damaged d) slot s

/-! ### Sequence numbers (R44, R45) -/

/-- The sequence check of a cell: a gap is counted and damages an open unit; the cell goes on in every case. -/
def sequenceCheck (slot n : Nat) (s : State) : State :=
  let t := bankGet s.track.slots slot
  let s1 := s.withTrack { s.track with
    slots := bankSet s.track.slots slot { t with expected := some ((n + 1) % 65536) } }
  match t.expected with
  | none => s1
  | some e =>
    if e = n then s1
    else
      let s2 := bump (fun c => { c with gaps := addTo top16 c.gaps 1 }) s1
      if t.assembly = .opened then damageOpen .incomplete slot s2 else s2

/-! ### Payloads (R49, R121) -/

/-- The length limit of a slot's units (R49). -/
def unitLimit (slot : Nat) : Nat :=
  match slot with
  | 0 => 2097152
  | 1 => 2097152
  | 2 => 196608
  | 3 => 24576
  | _ => 1048576

/-- A unit that has become OVERLONG: nothing more of it is stored (R49). -/
def UnitRec.tooLong (u : UnitRec) : UnitRec := { u.damaged .overlong with overlong := true }
def Resource.tooLong (r : Resource) : Resource := { r.damaged .overlong with overlong := true }

/-- A payload stored. -/
def UnitRec.stored (p : List Byte) (u : UnitRec) : UnitRec :=
  { u with content := u.content ++ p, storedLen := u.storedLen + p.length }
def Resource.stored (p : List Byte) (r : Resource) : Resource :=
  { r with content := r.content ++ p, storedLen := r.storedLen + p.length }

def countOverlong (s : State) : State := bump (fun c => { c with overlong := addTo top16 c.overlong 1 }) s

/-- A payload added to the open unit of a picture or sound slot (R49). -/
def addUnitPayload (slot : Nat) (p : List Byte) (s : State) : State :=
  match (queueOf s slot).find? (fun u => u.state == .assembling) with
  | none => s
  | some u =>
    if u.overlong then s
    else if unitLimit slot < u.storedLen + p.length then countOverlong (changeOpen UnitRec.tooLong slot s)
    else changeOpen (·.stored p) slot s

/-- RESOURCE_DROPPED with its detail words (R120). -/
def raiseDropped (seg slot id : Nat) (s : State) : State := raise .resourceDropped (seg * 65536 + slot) id s

/-- A payload added to the arriving resource of a text slot (R49, R121): stored, absorbed once OVERLONG, or more than
the free bytes, and the resource is dropped and the slot becomes SKIPPING. -/
def addResPayload (slot : Nat) (p : List Byte) (s : State) : State :=
  match s.text.store.find? (fun r => r.slot == slot && r.state == .assembling) with
  | none => s
  | some r =>
    if r.overlong then s
    else if unitLimit slot < r.storedLen + p.length then countOverlong (changeOpenRes Resource.tooLong slot s)
    else if freeBytes s < p.length then
      setAssembly slot .skipping (countRefused (raiseDropped r.seg slot r.id
        (setStore (s.text.store.filter (fun x => !x.named r.seg slot r.id)) s)))
    else changeOpenRes (·.stored p) slot s

/-- A payload added to the open unit or resource of a slot. -/
def addPayload (slot : Nat) (p : List Byte) (s : State) : State :=
  if slot < 4 then addUnitPayload slot p s else addResPayload slot p s

/-! ### Closing (R48, R50) -/

/-- The cause of a unit FAILED for its defect (R63). -/
def Defect.cause : Defect → Cause
  | .incomplete => .incomplete
  | .truncated => .truncated
  | .overlong => .overlong

/-- The state of a unit that closes (R50): WAITING, or FAILED with its defect. -/
def closedState (d : Option Defect) : UnitState :=
  match d with
  | none => .waiting
  | some x => .failed x.cause

/-- The open unit or resource of a slot closes, and the slot becomes VACANT (R50). -/
def closeUnit (slot : Nat) (s : State) : State :=
  setAssembly slot .vacant
    (if slot < 4 then changeOpen (fun u => { u with state := closedState u.defect }) slot s
     else changeOpenRes (fun r => { r with state := closedState r.defect }) slot s)

/-- A unit-start finds the slot OPEN: the open unit closes TRUNCATED (R48). -/
def truncateOpen (slot : Nat) (s : State) : State :=
  closeUnit slot (bump (fun c => { c with truncated := addTo top16 c.truncated 1 }) (damageOpen .truncated slot s))

/-! ### Acceptance (R47, R51, R120) -/

/-- Why a unit-start is refused (R47, R51). -/
inductive RefusedUnit where
  | notCued | late | notExpected | outOfOrder | overrun | store
deriving DecidableEq, Repr

/-- A unit arriving is LATE (R47 step 2): its position is before its slot's due position, or of a passed entry. P1 has a due position only
in a stereo segment (R30, R74), so in a mono one only units of earlier segments and of the member not played are. -/
def arrivalLate (s : State) (slot : Nat) (a : Nat × Place) : Bool :=
  match s.seq.ctx with
  | some c => if slot = 1 && !c.segment.stereo then before s a (c.played, .start) || isPassed s a.1 else lateFor s slot a
  | none => false

/-- The checks of R47 on an essence unit, in order. -/
def essenceCheck (slot seg unit : Nat) (s : State) : Option RefusedUnit :=
  let g := segmentOf s seg
  if s.seq.state = .idle ∨ showLength s.showList ≤ seg then some .notCued
  else if arrivalLate s slot (seg, .unit unit) then some .late
  else if expectedMember s seg = false ∨ unit < g.entryPoint ∨ g.entryPoint + g.duration ≤ unit ∨
      (slot = 1 ∧ g.stereo = false) then some .notExpected
  else if (match (queueOf s slot).getLast? with
      | some u => !before s (u.seg, .unit u.unit) (seg, .unit unit)
      | none => false) then some .outOfOrder
  else if freeBuffers s slot = 0 then some .overrun
  else none

/-- A refused unit counted as R43 gives. -/
def countRefusal (r : RefusedUnit) (s : State) : State :=
  match r with
  | .late => countLate 1 s
  | .overrun => bump (fun c => { c with overruns := addTo top16 c.overruns 1 }) s
  | .notCued | .notExpected | .outOfOrder | .store => countRefused s

/-- The segment of a resource is before the current one, or is one passed, as the member not played is (R51 step 2). -/
def resourceLate (s : State) (seg : Nat) : Bool :=
  match s.seq.ctx with
  | some c => decide (playRank s.showList seg < playRank s.showList c.played) || c.passes s.showList seg
  | none => false

/-- Steps 1 to 3 of R51 on a resource, in order. -/
def resourceCheck (slot seg : Nat) (s : State) : Option RefusedUnit :=
  if s.seq.state = .idle ∨ showLength s.showList ≤ seg then some .notCued
  else if resourceLate s seg then some .late
  else if expectedMember s seg = false ∨ slotOn (segmentOf s seg) slot = false then some .notExpected
  else none

/-- A new unit record (R47). -/
def UnitRec.fresh (seg unit : Nat) : UnitRec := ⟨seg, unit, .assembling, none, false, 0, [], none⟩

/-- A new resource (R120 step 3). -/
def Resource.fresh (seg slot id : Nat) : Resource := ⟨seg, slot, id, none, 0, .assembling, none, false, [], none⟩

/-- A unit state is FAILED. -/
def UnitState.isFailed : UnitState → Bool
  | .failed _ => true
  | .assembling | .waiting | .unpacking | .ready => false

/-- The Text Engine asked to create a resource (R120): a FAILED one of the same name is freed first, an ARRIVING or
READY one refuses it, and it needs an entry and room for its first payload. -/
def createResource (slot seg id len : Nat) (s : State) : Option RefusedUnit × State :=
  let old := findResource s seg slot id
  if old.any (fun r => !r.state.isFailed) then (some .store, s)
  else
    let s1 := setStore (s.text.store.filter (fun r => !r.named seg slot id)) s
    if freeEntries s1 = 0 ∨ freeBytes s1 < len then (some .store, raiseDropped seg slot id s1)
    else (none, setStore (s1.text.store ++ [Resource.fresh seg slot id]) s1)

/-- A unit-start's unit accepted or refused: the reason of a refusal, and the state with an accepted unit in place. -/
def acceptUnit (slot seg unit len : Nat) (s : State) : Option RefusedUnit × State :=
  if slot < 4 then
    match essenceCheck slot seg unit s with
    | some r => (some r, s)
    | none => (none, setQueue slot (queueOf s slot ++ [UnitRec.fresh seg unit]) s)
  else
    match resourceCheck slot seg s with
    | some r => (some r, s)
    | none => createResource slot seg unit len s

/-- An end mark on a cell whose unit is open: the unit closes, unless the cell's payload dropped it (R50, R121). -/
def endIfMarked (marked : Bool) (slot : Nat) (s : State) : State :=
  if marked && assemblyOf s slot == .opened then closeUnit slot s else s

/-- A unit-start at a VACANT or SKIPPING slot (R46). -/
def startUnit (c : Cell) (s : State) : State :=
  match acceptUnit c.slot c.segment c.unitNumber c.payload.length s with
  | (some r, s1) => setAssembly c.slot (if c.unitEnd then .vacant else .skipping) (countRefusal r s1)
  | (none, s1) => endIfMarked c.unitEnd c.slot (addPayload c.slot c.payload (setAssembly c.slot .opened s1))

/-- A valid ESSENCE or RESOURCE cell after its sequence check, by its slot's assembly state (R46). -/
def assembleCell (c : Cell) (s : State) : State :=
  if c.unitStart then
    startUnit c (if assemblyOf s c.slot = .opened then truncateOpen c.slot s else s)
  else
    match assemblyOf s c.slot with
    | .vacant => bump (fun k => { k with orphans := addTo top16 k.orphans 1 }) s
    | .opened => endIfMarked c.unitEnd c.slot (addPayload c.slot c.payload s)
    | .skipping => if c.unitEnd then setAssembly c.slot .vacant s else s

/-! ### MANAGE cells (R172, R173) -/

/-- The request a MANAGE cell's payload lays out (R59). -/
def requestOf (p : List Byte) : Request := ⟨field p 0 2, field p 2 1, p.drop 4⟩

/-- A request arrives (R172, R173): it joins the queue, or is answered QUEUE_FULL, or is lost. -/
def arriveRequest (r : Request) (s : State) : State :=
  let m := s.mgmt
  if m.queue.length < Config.requestPlaces then s.withMgmt { m with queue := m.queue ++ [r] }
  else if m.replies.length < Config.replyPlaces then
    s.withMgmt { m with replies := m.replies ++ [⟨r.tag, r.kind, .queueFull, []⟩] }
  else s.withMgmt { m with lost := addTo top16 m.lost 1 }

/-! ### A cell arrives (R40 to R42) -/

/-- A valid cell by its kind (R40). -/
def handleCell (c : Cell) (s : State) : State :=
  match c.kind with
  | 1 => assembleCell c (sequenceCheck c.slot c.seqNumber s)
  | 2 => assembleCell c (sequenceCheck c.slot c.seqNumber s)
  | 3 => arriveRequest (requestOf c.payload) s
  | _ => s

/-- A cell arrives whole: discarded where it fails R41, else handled by its kind once the lane is UP. -/
def receiveCell (c : Cell) (s : State) : State :=
  if c.valid then handleCell c (laneValid s) else headerError s

end Sys2Proof.Machine
end

