-- ==== Sys2Proof/Machine/Unpack.lean ====
section
/-! DEFINITION. The Unpacker: the engine's take and key check (R64, R66, R67), the checks of a completed unit (R66,
R68 to R71, R122) and abandonment (R65). -/

namespace Sys2Proof.Machine

/-! ### Choosing a unit (R64) -/

/-- A WAITING unit the engine may take: its arbitration position, slot, and name. -/
structure Waiting where
  position : Nat × Place
  slot : Nat
  seg : Nat
  unit : Nat
deriving DecidableEq, Repr

/-- The WAITING units of a picture or sound slot that the engine does not pass over (R64). -/
def waitingUnits (s : State) (slot : Nat) : List Waiting :=
  ((queueOf s slot).filter (fun u => u.state == .waiting && !lateFor s slot (u.seg, .unit u.unit))).map
    (fun u => ⟨(u.seg, .unit u.unit), slot, u.seg, u.unit⟩)

/-- The WAITING resources of a text slot, in the order in which they became WAITING: a slot assembles one at a time,
so that is the order of the store (R64). -/
def waitingResources (s : State) (slot : Nat) : List Waiting :=
  (s.text.store.filter (fun r => r.slot == slot && r.state == .waiting)).map
    (fun r => ⟨(r.seg, .start), slot, r.seg, r.id⟩)

/-- Every unit the engine may take, in slot order. -/
def eligible (s : State) : List Waiting :=
  waitingUnits s 0 ++ waitingUnits s 1 ++ waitingUnits s 2 ++ waitingUnits s 3 ++
    waitingResources s 4 ++ waitingResources s 5

/-- The unit of a list that comes first: a later one replaces an earlier one only where its arbitration position is
before it, so that equal positions go in slot order (R64). -/
def firstWaiting (s : State) : List Waiting → Option Waiting
  | [] => none
  | w :: l => some (l.foldl (fun best x => if before s x.position best.position then x else best) w)

/-! ### The unit's content (R58) -/

/-- The stored length and content of the unit or resource of a name. -/
def unitContent (s : State) (slot seg unit : Nat) (st : UnitState) : Option (Nat × List Byte) :=
  if slot < 4 then
    ((queueOf s slot).find? (fun u => u.seg == seg && u.unit == unit && u.state == st)).map
      (fun u => (u.storedLen, u.content))
  else
    (s.text.store.find? (fun r => r.named seg slot unit && r.state == st)).map (fun r => (r.storedLen, r.content))

/-- The state of the unit or resource of a name changed. -/
def changeUnit (slot seg unit : Nat) (f : UnitRec → UnitRec) (g : Resource → Resource) (s : State) : State :=
  if slot < 4 then
    setQueue slot ((queueOf s slot).map (fun u => if u.seg = seg ∧ u.unit = unit then f u else u)) s
  else setStore (s.text.store.map (fun r => if r.named seg slot unit then g r else r)) s

/-! ### The key check (R67) -/

/-- The kind of a slot's units: 0 picture, 1 sound, 2 text (R66). -/
def slotKind (slot : Nat) : Nat := if slot < 2 then 0 else if slot < 4 then 1 else 2

/-- The slot of the non-EMPTY entry that holds a key id (R67). -/
def findKey (lic : Vector Licence 64) (keyId : Id128) : Option Nat :=
  (List.range 64).find? (fun i => (bankGet lic i).state != .empty && (bankGet lic i).keyId == keyId)

/-- The key check: the first failed check's cause, or the licence slot and content key that decipher the unit, which
a plaintext unit has none of (R67). -/
def keyCheck (lic : Vector Licence 64) (g : Segment) (kind : Nat) (keyId : Id128) :
    Option Cause × Option (Nat × Id128) :=
  if g.isProtected = false then (if keyId = 0 then none else some .keyUnexpected, none)
  else if keyId = 0 then (some .plainRefused, none)
  else
    match findKey lic keyId with
    | none => (some .keyAbsent, none)
    | some i =>
      let x := bankGet lic i
      if x.state ≠ .bound then (some .keyUnbound, none)
      else if x.composition = g.composition ∧ x.kinds.has kind = true then (none, some (i, x.contentKey))
      else (some .keyMismatch, none)

/-- Checks 1 and 2 of R66, made when the engine takes the unit. -/
def takeCheck (lic : Vector Licence 64) (g : Segment) (kind len : Nat) (content : List Byte) :
    Option Cause × Option (Nat × Id128) :=
  if len < 24 then (some .format, none) else keyCheck lic g kind (idField content 0)

/-- The engine's job for a unit taken (R64, R66, R67). -/
def jobFor (s : State) (w : Waiting) (len : Nat) (content : List Byte) : UnpackJob :=
  let g := segmentOf s w.seg
  let r := takeCheck s.licences g (slotKind w.slot) len content
  { slot := w.slot
    seg := w.seg
    unit := w.unit
    abandoned := false
    heldBytes := 0
    verdict := r.1
    key := r.2
    isProtected := g.isProtected
    composition := g.composition
    rate := g.rate
    srate := g.srate }

/-- The idle engine takes the first unit it may, which becomes UNPACKING (R62, R64). -/
def engineTake (s : State) : State :=
  match s.engine with
  | some _ => s
  | none =>
    match firstWaiting s (eligible s) with
    | none => s
    | some w =>
      match unitContent s w.slot w.seg w.unit .waiting with
      | none => s
      | some (len, content) =>
        (changeUnit w.slot w.seg w.unit (fun u => { u with state := .unpacking })
          (fun r => { r with state := .unpacking }) s).withEngine (some (jobFor s w len content))

/-! ### Deciphering (R68) -/

/-- The counter block of block j: unit number, slot, zeros, j (R68). -/
def counterBlock (unit slot j : Nat) : BitVec 128 :=
  BitVec.ofNat 128 (unit * 2 ^ 96 + slot * 2 ^ 88 + j % 2 ^ 32)

/-- Byte i of the keystream: byte i mod 16 of the keystream block i / 16 (R68). -/
def keystreamByte (key : Id128) (unit slot i : Nat) : Byte :=
  (Config.contentCipher key (counterBlock unit slot (i / 16))).extractLsb' (8 * (15 - i % 16)) 8

/-- A body deciphered from byte i on (R68). -/
def decipherFrom (key : Id128) (unit slot : Nat) : Nat → List Byte → List Byte
  | _, [] => []
  | i, b :: l => (b ^^^ keystreamByte key unit slot i) :: decipherFrom key unit slot (i + 1) l

/-- The body, deciphered where a key was found (R66 step 4). -/
def decipher (j : UnpackJob) (body : List Byte) : List Byte :=
  match j.key with
  | some (_, k) => decipherFrom k j.unit j.slot 0 body
  | none => body

/-! ### The checks (R66, R69, R70) -/

/-- The sample rate a sound header's code names (R58). -/
def rateOfCode (n : Nat) : Option SampleRate :=
  match n with
  | 0 => some .r48k
  | 1 => some .r96k
  | _ => none

/-- The sound header check of R70. -/
def soundHeaderOk (slot : Nat) (e : EditRate) (r : SampleRate) (p : List Byte) : Bool :=
  let channels := byteAt p 0
  let samples := field p 2 2
  decide (4 ≤ p.length) && decide (1 ≤ channels) && decide (channels ≤ if slot = 2 then 16 else 2) &&
    rateOfCode (byteAt p 1) == some r && samples == samplesPerUnit e r && p.length == 4 + channels * samples * 3

/-- Step 6 of R66. -/
def formatOk (j : UnpackJob) (p : List Byte) : Bool :=
  match slotKind j.slot with
  | 0 => decide (0 < p.length)
  | 1 => soundHeaderOk j.slot j.rate j.srate p
  | _ => true

/-- The outcome of a unit's unpacking: the cause of its first failed check, or its plaintext (R66). -/
def unpack (j : UnpackJob) (len : Nat) (content : List Byte) : Except Cause (List Byte) :=
  match j.verdict with
  | some c => .error c
  | none =>
    let plainLen := field content 16 4
    if len - 24 < plainLen then .error .format
    else
      let p := (decipher j ((content.drop 20).take (len - 24))).take plainLen
      if (crc32 p).toNat ≠ field content (len - 4) 4 then .error .checkFail
      else if formatOk j p then .ok p
      else .error .format

/-- The check attributes of a unit that becomes READY (R71). -/
def attrsOf (j : UnpackJob) (p : List Byte) : CheckAttrs where
  isProtected := j.isProtected
  composition := if j.isProtected then some j.composition else none
  licence := j.key.map (·.1)
  sound := if slotKind j.slot = 1 then some ⟨j.srate, samplesPerUnit j.rate j.srate, byteAt p 0⟩ else none

/-! ### Completion and abandonment (R65, R66, R71, R122) -/

/-- A picture or sound unit completed: READY with its plaintext and attributes, or FAILED with its cause. -/
def finishUnit (j : UnpackJob) (r : Except Cause (List Byte)) (u : UnitRec) : UnitRec :=
  match r with
  | .ok p => { u with state := .ready, content := p, attrs := some (attrsOf j p) }
  | .error c => { u with state := .failed c }

/-- A resource completed: READY with its kind, plaintext and attributes, or FAILED, with FORMAT where its resource
header fails (R71, R122). -/
def finishResource (j : UnpackJob) (r : Except Cause (List Byte)) (x : Resource) : Resource :=
  match r with
  | .ok p =>
    match resourceKind x.slot x.id p with
    | some k => { x with state := .ready, kind := some k, content := p, attrs := some (attrsOf j p) }
    | none => { x with state := .failed .format }
  | .error c => { x with state := .failed c }

/-- What a resource that has just become READY does at once (R122). -/
def resourceReady (seg slot id : Nat) (s : State) : State :=
  match findResource s seg slot id with
  | some r => if r.state = .ready ∧ r.kind ≠ some .image then listReady r s else s
  | none => s

/-- The engine completes its unit and becomes idle (R66, R71). -/
def engineComplete (s : State) : State :=
  match s.engine with
  | none => s
  | some j =>
    if j.abandoned then s
    else
      match unitContent s j.slot j.seg j.unit .unpacking with
      | none => s.withEngine none
      | some (len, content) =>
        let r := unpack j len content
        let s1 := (changeUnit j.slot j.seg j.unit (finishUnit j r) (finishResource j r) s).withEngine none
        if j.slot < 4 then s1 else resourceReady j.seg j.slot j.unit s1

/-- The engine abandons a discarded unit or freed resource, keeping no result; its buffer or store room is free from
then on, since the idle engine holds none (R52, R65, R123). -/
def engineAbandon (s : State) : State :=
  match s.engine with
  | some j => if j.abandoned then s.withEngine none else s
  | none => s

end Sys2Proof.Machine
end

