-- ==== Sys2Proof/Machine/Sequencer.lean ====
section
/-! DEFINITION. The Sequencer at a unit boundary: a segment entered (R8, R10 to R12), the steps of R13 and the end
of a showing (R18). What the boundary carries to the outputs stands in Boundary.lean. -/

namespace Sys2Proof.Machine

/-! ### A segment selected (R10, R11) -/

/-- The segment context of a principal selected now (R10, R11). -/
def contextFor (s : State) (principal : Nat) : Context :=
  let m := playedMember s.showList principal
  let g := (bankGet s.showList m.1).toSegment
  { played := m.1
    principal := principal
    other := m.2
    segment := g
    condition := true
    leadUnits := leadUnitsOf g.leadGap g.rate
    holdPending := g.hold }

/-- The Sequencer with a segment's context, its position at offset 0 and its ticks per unit (R8, R11, R27).
That no lead units remain before LEAD begins is the model's choice (assumption log 43). -/
def Sequencer.filled (c : Context) (q : Sequencer) : Sequencer :=
  { q with
    ctx := some c
    seg := c.played
    offset := 0
    leadRemaining := 0
    ticksPerUnit := c.segment.rate.ticks }

/-- A selection's effects (R10, R11): the skipped entries and the segment recorded, the context filled,
SEGMENT_START raised, queued units of the skipped entries and of the member not played discarded (R53), earlier
resources freed (R123), the clip report open again (R115). -/
def enterSegment (skipped : List Nat) (principal : Nat) (s : State) : State :=
  let c := contextFor s principal
  let s1 := recordSelection skipped c s
  let s2 := s1.withSeq (s1.seq.filled c)
  let s3 := raise .segmentStart c.played c.principal s2
  let s4 := (skipped ++ c.other.toList).foldl discardEntry s3
  let s5 := textSelection c s4
  s5.withSound { s5.sound with clipReported := false }

/-! ### The steps of R13 -/

/-- A showing state and the start of its first unit (R12): HOLD, LEAD with all lead units to run, or PLAYING. -/
def Sequencer.inLead (c : Context) (q : Sequencer) : Sequencer :=
  { q with state := .lead, leadRemaining := c.leadUnits }
def Sequencer.inPlaying (q : Sequencer) : Sequencer := { q with state := .playing, offset := 0 }

/-- Steps 2 and 3 of R12: LEAD where there are lead units, else PLAYING at offset 0. -/
def Sequencer.leadOrPlay (c : Context) (q : Sequencer) : Sequencer :=
  if 0 < c.leadUnits then q.inLead c else q.inPlaying

/-- R12 for a segment selected at a segment end. -/
def Sequencer.begun (c : Context) (q : Sequencer) : Sequencer :=
  if c.holdPending then { q with state := .hold } else q.leadOrPlay c

/-- Showing time at a boundary (R35): a LEAD or PLAYING unit that ended adds its ticks. -/
def Sequencer.timed (q : Sequencer) : Sequencer :=
  if q.state = .lead ∨ q.state = .playing then { q with showingTime := q.showingTime + q.ticksPerUnit } else q

/-- The unit in progress is the last of a PLAYING segment (R13 step 1). -/
def Sequencer.atLastUnit (q : Sequencer) : Bool :=
  match q.ctx with
  | some c => q.state == .playing && decide (c.segment.duration ≤ q.offset + 1)
  | none => false

/-- Step 1 of R13 where no segment ends: the offset or the lead units move. -/
def Sequencer.unitEnded (q : Sequencer) : Sequencer :=
  match q.state with
  | .playing => { q with offset := q.offset + 1 }
  | .lead =>
    if q.leadRemaining ≤ 1 then ({ q with leadRemaining := 0 } : Sequencer).inPlaying
    else { q with leadRemaining := q.leadRemaining - 1 }
  | .idle | .cued | .hold | .paused => q

/-- Step 1 of R13, showing time with it (R35): a segment that ended is handed PLAYED and SEGMENT_END is raised. -/
def boundaryUnit (s : State) : State :=
  let s1 := s.withSeq s.seq.timed
  if s.seq.atLastUnit then
    let s2 := raise .segmentEnd s.seq.seg (lastUnitsOutput s1) (recordPlayed s1)
    textSegmentEnd s.seq.seg s2
  else s1.withSeq s1.seq.unitEnded

/-- Step 4 of R13: the next segment selected from after the principal, and begun by R12; or none is found. -/
def boundarySelect (c : Context) (s : State) : Option State :=
  let r := selectAt s.showList s.seq.flags (c.principal + 1)
  match r.2 with
  | some p =>
    let s1 := enterSegment r.1 p s
    some (s1.withSeq (s1.seq.begun (contextFor s p)))
  | none => none

/-- The SKIPPED results and discards of a selection that found none (R10). -/
def boundarySkips (c : Context) (s : State) : State :=
  let r := selectAt s.showList s.seq.flags (c.principal + 1)
  r.1.foldl discardEntry (recordSkipped r.1 s)

/-- A pause entered with its cause (R13 step 5, R21). -/
def Sequencer.pausedBy (cause : PauseCause) (q : Sequencer) : Sequencer :=
  { q with state := .paused, pausedFrom := some q.state, pauseCause := some cause, pauseSteps := 0 }

/-- Step 5 of R13: a pending pause enters PAUSED from LEAD or PLAYING, and one pause is handed (R15). -/
def boundaryPause (s : State) : State :=
  match s.seq.pend.pause with
  | some cause =>
    if s.seq.state = .lead ∨ s.seq.state = .playing then countPause (s.withSeq (s.seq.pausedBy cause)) else s
  | none => s

/-- The Sequencer out of PAUSED, back in the paused-from state (R13 step 6, R15, R21). That no paused-from state and no
pause cause are held then is the model's choice (assumption log 43). -/
def Sequencer.resumed (q : Sequencer) : Sequencer :=
  { q with
    state := q.pausedFrom.getD .playing
    pausedFrom := none
    pauseCause := none
    pauseSteps := 0
    starvation := 0 }

/-- Step 6 of R13: a pending resume leaves PAUSED, and the pause's length is handed (R15). -/
def boundaryResume (s : State) : State :=
  if s.seq.pend.resume = true ∧ s.seq.state = .paused then
    (countPausedTime s.seq.pauseSteps s).withSeq s.seq.resumed
  else s

/-- Step 7 of R13: a pending go satisfies the hold; the first go of a showing sets the start time (R162). -/
def boundaryGo (s : State) : State :=
  match s.seq.ctx with
  | some c =>
    if s.seq.pend.go = true ∧ (s.seq.state = .cued ∨ s.seq.state = .hold) then
      let d := { c with holdPending := false }
      let s1 := s.withSeq (({ s.seq with ctx := some d } : Sequencer).leadOrPlay d)
      if s.seq.state = .cued then recordStart s1 else s1
    else s
  | none => s

/-- What R13 makes of a boundary: the state it leaves, and the end cause where it ends the showing. `fresh` says
that step 4 began a segment. -/
structure Handled where
  after : State
  ended : Option EndCause
  fresh : Bool
deriving DecidableEq

/-- Steps 5 to 7 of R13. -/
def boundaryControls (s : State) : State := boundaryGo (boundaryResume (boundaryPause s))

/-- The steps of R13 in their order, up to what they decide (R13, R16, R21). -/
def handleBoundary (s : State) : Handled :=
  let s1 := boundaryUnit s
  if s.seq.pend.stop then ⟨s1, some (if s.seq.state = .cued then .cancelled else .stopped), false⟩
  else if s.seq.pend.timeout then ⟨s1, some .pauseTimeout, false⟩
  else
    match s.seq.atLastUnit, s.seq.ctx with
    | true, some c =>
      match boundarySelect c s1 with
      | some s2 => ⟨boundaryControls s2, none, true⟩
      | none => ⟨boundarySkips c s1, some .complete, false⟩
    | _, _ => ⟨boundaryControls s1, none, false⟩

/-! ### SHOW_STATE and the end of a showing (R13, R18) -/

/-- Detail word 2 of SHOW_STATE where the state is not IDLE (R187). -/
def stateDetail (q : Sequencer) : Nat :=
  if q.state = .paused then (q.pauseCause.getD .operator).code else 0

/-- The pending controls cleared, and SHOW_STATE raised where the boundary changed the state (R13). -/
def boundaryReported (old : State) (s : State) : State :=
  let s1 := s.withSeq { s.seq with pend := .none }
  raiseIf (s1.seq.state != old.seq.state) .showState s1.seq.state.code (stateDetail s1.seq) s1

/-- The Sequencer in IDLE at the end of a showing (R18 step 5): flags, held inputs, limits and showing time stand. What
R18 does not list is the model's choice: the stopped unit clock holds the last segment's ticks per unit and a tick count
of 0 (assumption log 37), no lead units remain and there is no pause cause (assumption log 43). -/
def Sequencer.ended (q : Sequencer) : Sequencer :=
  { q with
    state := .idle
    ctx := none
    seg := 0
    offset := 0
    leadRemaining := 0
    pend := .none
    pausedFrom := none
    pauseCause := none
    pauseSteps := 0
    starvation := 0
    clockRunning := false
    tickCount := 0 }

/-- The length of a pause in progress (R15, R18). -/
def pauseInProgress (q : Sequencer) : Nat := if q.state = .paused then q.pauseSteps else 0

/-- The Picture Port at the end of a showing and at CUE SHOW: both stores empty (R76), no record of IDLE. -/
def PicturePort.emptied (p : PicturePort) : PicturePort := { p with left := none, right := none, records := [] }

/-- The end of a showing at a unit boundary (R18, R91, R54, R123, R138, R103, R110, R76, R165). -/
def endShowing (cause : EndCause) (s : State) : State :=
  let s1 := textShowingEnd (emptyQueues (releaseAll s))
  let s2 := s1.withSeq s1.seq.ended
  let s3 := raise .showState SeqState.idle.code cause.code s2
  let s4 := closeShowing cause (pauseInProgress s.seq) s3
  (s4.withSound s4.sound.endShowing).withPicture s4.picture.emptied

end Sys2Proof.Machine
end

