-- ==== Sys2Proof/Machine/Boundary.lean ====
section
/-! DEFINITION. What a unit boundary carries to the outputs: due units (R72 to R74), picture records (R75, R76),
sound (R99, R100), text, concealment (R77, R22), flip and count (R19, R163), automation cues (R154 to R156), and the
whole boundary in one function, `unitBoundaryTick`. -/

namespace Sys2Proof.Machine

/-! ### Due units (R72, R73) -/

/-- The position whose output begins: the played member and the reel unit (R28, R31). -/
def duePlace (s : State) : Nat × Place := (s.seq.seg, .unit (reelUnit s.seq))

/-- Heads before the due unit, or of passed entries, discarded as LATE, one after another (R72). -/
def discardHeads (slot : Nat) (s : State) : State :=
  let q := queueOf s slot
  let late := q.takeWhile (fun u => before s (u.seg, .unit u.unit) (duePlace s) || isPassed s u.seg)
  countLate late.length (leaveQueue slot late (q.drop late.length) s)

/-- The recheck of a READY unit against the segment context (R73): the cause it is concealed with, if any. A sound unit
that fails both checks is concealed with KEY_MISMATCH, the model's choice (assumption log 44). -/
def recheck (g : Segment) (slot : Nat) (a : CheckAttrs) : Option Cause :=
  if a.isProtected ≠ g.isProtected ∨ (g.isProtected = true ∧ a.composition ≠ some g.composition) then
    some .keyMismatch
  else if 2 ≤ slot then
    match a.sound with
    | some x => if x.srate = g.srate ∧ x.samplesPerUnit = samplesPerUnit g.rate g.srate then none else some .format
    | none => some .format
  else none

/-- What a slot's due boundary brings: the unit output good, or the cause it is concealed with. -/
abbrev Taken := Except Cause UnitRec

/-- The outcome of the head of a queue once heads before the due unit are gone, and whether it leaves (R72). -/
def judgeHead (g : Segment) (slot seg unit : Nat) (q : List UnitRec) : Taken × Bool :=
  match q with
  | [] => (.error .missing, false)
  | u :: _ =>
    if u.seg = seg ∧ u.unit = unit then
      match u.state with
      | .ready =>
        match u.attrs.bind (recheck g slot) with
        | some c => (.error c, true)
        | none => (.ok u, true)
      | .failed c => (.error c, true)
      | .assembling | .waiting | .unpacking => (.error .notReady, false)
    else (.error .missing, false)

/-- A concealed unit on a slot: CONCEAL where the slot's last outcome is GOOD (R77). -/
def concealSlot (slot : Nat) (c : Cause) (s : State) : State :=
  if bankGet s.picture.concealed slot then s
  else raise .conceal slot c.code
    (s.withPicture { s.picture with concealed := bankSet s.picture.concealed slot true })

/-- A good unit makes the slot's last outcome GOOD (R77). -/
def goodSlot (slot : Nat) (s : State) : State :=
  s.withPicture { s.picture with concealed := bankSet s.picture.concealed slot false }

/-- A slot takes its due unit (R72) and hands on its outcome (R77). -/
def takeDue (g : Segment) (slot : Nat) (s : State) : Taken × State :=
  let s1 := discardHeads slot s
  let q := queueOf s1 slot
  let r := judgeHead g slot s1.seq.seg (reelUnit s1.seq) q
  let s2 := if r.2 then setQueue slot (q.drop 1) s1 else s1
  match r.1 with
  | .ok _ => (r.1, goodSlot slot s2)
  | .error c => (r.1, concealSlot slot c s2)

/-! ### Picture (R75, R76) -/

/-- The last good unit of an eye. -/
def goodUnit (p : PicturePort) (eye : Eye) : Option GoodUnit :=
  match eye with
  | .mono => p.left
  | .left => p.left
  | .right => p.right

/-- A unit output copied into its eye's store (R76). -/
def PicturePort.keep (eye : Eye) (x : GoodUnit) (p : PicturePort) : PicturePort :=
  match eye with
  | .mono => { p with left := some x }
  | .left => { p with left := some x }
  | .right => { p with right := some x }

/-- The record of an eye at a boundary that begins a unit's output (R75, R76). -/
def outputRecord (s : State) (eye : Eye) (t : Taken) (overlays : List Overlay) : PictureRecord :=
  let r : PictureRecord := {
    eye := eye
    showing := s.recorder.record.number
    seg := s.seq.seg
    offset := s.seq.offset
    content := .black
    source := none
    concealed := true
    cause := .none
    overlays := overlays }
  match t with
  | .ok u => { r with content := .unit u.content, source := some (u.seg, u.unit), concealed := false }
  | .error c =>
    match goodUnit s.picture eye with
    | some x => { r with content := .held x.plaintext, source := some (x.seg, x.unit), cause := c }
    | none => { r with cause := c }

/-- A black record of CUED, HOLD, LEAD or PAUSED (R75). -/
def blackRecord (s : State) (eye : Eye) : PictureRecord :=
  ⟨eye, s.recorder.record.number, s.seq.seg, s.seq.offset, .black, none, false, .none, []⟩

/-- The eyes of a segment, in slot order (R75). -/
def eyesOf (g : Segment) : List Eye := if g.stereo then [.left, .right] else [.mono]

/-- The records of a unit that carries no output. -/
def sendBlack (g : Segment) (s : State) : State :=
  s.withPicture { s.picture with records := (eyesOf g).map (blackRecord s) }

/-- The store of an eye after its outcome. -/
def keepGood (eye : Eye) (t : Taken) (p : PicturePort) : PicturePort :=
  match t with
  | .ok u => p.keep eye ⟨u.seg, u.unit, u.content⟩
  | .error _ => p

/-- The records of a unit whose output begins, one per eye, the stores taking the good units (R75, R76). -/
def sendRecords (g : Segment) (p0 : Taken) (p1 : Option Taken) (overlays : List Overlay) (s : State) : State :=
  match p1 with
  | some t =>
    s.withPicture { keepGood .right t (keepGood .left p0 s.picture) with
      records := [outputRecord s .left p0 overlays, outputRecord s .right t overlays] }
  | none =>
    s.withPicture { keepGood (if g.stereo then .left else .mono) p0 s.picture with
      records := [outputRecord s .mono p0 overlays] }

/-- A slot's outcome as a count. -/
def concealedCount (t : Taken) : Nat :=
  match t with
  | .ok _ => 0
  | .error _ => 1

/-! ### Sound (R58, R99, R100) -/

/-- A signed 24-bit sample from its three bytes. -/
def signed24 (n : Nat) : Int := if n < 8388608 then n else (n : Int) - 16777216

/-- The samples of a sound body, in the order they stand (R58). -/
def readSamples : List Byte → List Int
  | a :: b :: c :: l => signed24 (fromBe [a, b, c]) :: readSamples l
  | _ => []

/-- The play store of a sound unit's plaintext (R58, R99). -/
def storeOf (p : List Byte) : PlayStore := ⟨byteAt p 0, field p 2 2, readSamples (p.drop 4)⟩

/-- A sound slot after its outcome: a good unit is copied into its play store (R99). -/
def SoundSlot.fed (t : Taken) (x : SoundSlot) : SoundSlot :=
  match t with
  | .ok u => { x with store := some (storeOf u.content) }
  | .error _ => x

def isGood (t : Taken) : Bool :=
  match t with
  | .ok _ => true
  | .error _ => false

/-- The Sound Engine as a unit's output begins (R99). -/
def SoundEngine.fed (t0 t1 : Taken) (q : SoundEngine) : SoundEngine :=
  ({ q with s0 := q.s0.fed t0, s1 := q.s1.fed t1 } : SoundEngine).beginUnit (isGood t0) (isGood t1)

/-! ### Starvation (R22), flip (R19), count (R163) -/

/-- The P0 outcome handed to the Sequencer while PLAYING (R22, R77). -/
def handOutcome (t : Taken) (s : State) : State :=
  match t with
  | .ok _ => s.withSeq { s.seq with starvation := 0 }
  | .error _ =>
    let s1 := s.withSeq { s.seq with starvation := addTo 240 s.seq.starvation 1 }
    if s1.seq.starves then starve s1 else s1

/-- The due member flipped (R19). -/
def Entry.flipped (e : Entry) : Entry :=
  { e with dueAlternate := !e.dueAlternate, generation := nextGeneration e.generation }

/-- The alternate flip where the last unit of a pair's played member begins (R19). -/
def flipPair (c : Context) (s : State) : State :=
  if c.other.isSome ∧ s.seq.offset + 1 = c.segment.duration then
    s.withShowList (bankSet s.showList c.principal (bankGet s.showList c.principal).flipped)
  else s

/-- The count where the count-point unit of a FEATURE begins (R32, R163). -/
def countAtPoint (c : Context) (s : State) : State :=
  if c.segment.cls = .feature ∧ c.segment.countPoint = some s.seq.offset then countShowing c s else s

/-! ### Text at a boundary that begins a unit's output (R125, R127, R132, R136) -/

/-- The lists loaded at the segment's first output boundary, then T0 and T1 run. -/
def runText (c : Context) (resumed : Bool) (s : State) : State :=
  let s1 := if s.seq.offset = 0 then loadList c.segment 5 (loadList c.segment 4 s) else s
  let u := reelUnit s1.seq
  let last := c.segment.lastReelUnit
  runT1 last u resumed (runT0 last u s1)

/-! ### The output of a unit begins (R31) -/

/-- Everything the output of a unit brings, block by block (assumption log 7, 9). -/
def beginOutput (c : Context) (resumed : Bool) (s : State) : State :=
  let g := c.segment
  let a0 := takeDue g 0 s
  let a1 : Option Taken × State :=
    if g.stereo then (some (takeDue g 1 a0.2).1, (takeDue g 1 a0.2).2) else (none, a0.2)
  let a2 := takeDue g 2 a1.2
  let a3 := takeDue g 3 a2.2
  let s1 := a3.2.withSound (a3.2.sound.fed a2.1 a3.1)
  let pictures := concealedCount a0.1 + (match a1.1 with | some t => concealedCount t | none => 0)
  let sounds := concealedCount a2.1 + (if s1.sound.countsNarration then concealedCount a3.1 else 0)
  let s2 := countSoundConcealed sounds (countPictureConcealed pictures (countUnitOutput s1))
  let s3 := runText c resumed s2
  let u := reelUnit s3.seq
  let overlays := overlayList s3 u
  let s4 := (List.range 4).foldl (markOverlay u) s3
  let s5 := sendRecords g a0.1 a1.1 overlays s4
  countAtPoint c (flipPair c (handOutcome a0.1 s5))

/-- A unit that begins no output: black and silence, captions withdrawn as a pause is entered (R6, R75, R99, R137). -/
def beginBlack (c : Context) (entersPause : Bool) (s : State) : State :=
  let s1 := sendBlack c.segment (s.withSound (s.sound.beginUnit false false))
  if entersPause then withdrawCaptions s1 else s1

/-! ### Automation cues (R154 to R156) -/

/-- The cue indices of a segment's range (R154). -/
def cueRange (g : Segment) : List Nat := (List.range g.cueCount).map (g.cueFirst + ·)

/-- A cue's action performed (R156). -/
def performCue (i : Nat) (a : CueAction) (s : State) : State :=
  match a with
  | .line n x => (lineAct n x s).1
  | .flag x y z => setFlagsBy x y z s
  | .mark v => raise .mark v i s
  | .sound p => if s.seq.state = .idle then s else s.withSound { s.sound with pendingSel := some p }

/-- A cue fires where its anchor is the one given and its condition holds on the flags as they stand (R156). -/
def fireCue (isAnchor : Anchor → Bool) (s : State) (i : Nat) : State :=
  let x := bankGet s.cues i
  if isAnchor x.anchor && x.cond.holds s.seq.flags then performCue i x.action s else s

/-- A group of cues in ascending index. -/
def fireGroup (g : Segment) (isAnchor : Anchor → Bool) (s : State) : State := (cueRange g).foldl (fireCue isAnchor) s

/-- A group fired where its event came. -/
def fireIf (event : Bool) (g : Segment) (isAnchor : Anchor → Bool) (s : State) : State :=
  if event then fireGroup g isAnchor s else s

/-- A positional anchor of the unit at an offset (R33). -/
def positional (g : Segment) (offset : Nat) : Anchor → Bool
  | .start e => e == offset
  | .finish e => decide (1 ≤ e) && offset + e == g.duration
  | .none | .lead | .onPause | .onResume | .onStop | .onShowEnd => false

/-- The cues of a boundary that goes on (R155, R156): groups 2 to 4. -/
def fireCues (c : Context) (paused resumed : Bool) (s : State) : State :=
  let g := c.segment
  let leads := s.seq.state == .lead && s.seq.leadRemaining == c.leadUnits
  let plays := s.seq.state == .playing
  fireIf plays g (positional g s.seq.offset)
    (fireIf leads g (· == .lead)
      (fireIf resumed g (· == .onResume)
        (fireIf paused g (· == .onPause) s)))

/-- The cues of a boundary that ends the showing (R155, R156): group 1. -/
def fireEndCues (g : Segment) (cause : EndCause) (s : State) : State :=
  fireIf true g (· == .onShowEnd)
    (fireIf (cause == .stopped || cause == .cancelled) g (· == .onStop) s)

/-! ### The whole boundary -/

/-- The position as the boundary before this one left it, which the reports of a boundary that ends the showing carry
until IDLE returns it to 0, 0: the unit after the last is never reached (R28, assumption log 8). -/
def positionKept (old s : State) : State := s.withSeq { s.seq with seg := old.seq.seg, offset := old.seq.offset }

/-- A boundary that ended the showing: R18, then the cues of the segment that was in progress, then PACE. -/
def boundaryEnds (old : State) (cause : EndCause) (s : State) : State :=
  let s1 := endShowing cause (positionKept old s)
  formPace (match old.seq.ctx with
    | some c => fireEndCues c.segment cause s1
    | none => s1)

/-- The state after R13 is one that PAUSED was entered at. -/
def enteredPause (old s : State) : Bool := s.seq.state == .paused && old.seq.state != .paused

/-- A resume took effect at the boundary. -/
def leftPause (old s : State) : Bool := old.seq.state == .paused && s.seq.state != .paused

/-- The queues and the profile as the unit begins: the boundary discards (R53, R74), the profile in force (R103). -/
def boundaryStaged (old : State) (fresh : Bool) (c : Context) (s : State) : State :=
  let s1 := monoDiscard ((List.range 4).foldl (boundaryDiscard old) s)
  s1.withSound (s1.sound.boundaryProfile (if fresh then some c.segment else none))

/-- What the unit that begins carries (R6, R31). -/
def boundaryCarries (c : Context) (paused resumed : Bool) (s : State) : State :=
  if s.seq.state = .playing then beginOutput c resumed s else beginBlack c paused s

/-- A boundary that goes on: SHOW_STATE, the discards and the profile, then what the unit that begins carries, the
cues and PACE. -/
def boundaryGoes (old : State) (fresh : Bool) (s : State) : State :=
  let s1 := boundaryReported old s
  match s1.seq.ctx with
  | none => formPace s1
  | some c =>
    let s2 := boundaryStaged old fresh c s1
    let paused := enteredPause old s2
    let resumed := leftPause old s2
    formPace (fireCues c paused resumed (boundaryCarries c paused resumed s2))

/-- The boundary handled and carried to the outputs (R13). -/
def boundaryActs (s : State) : State :=
  let h := handleBoundary s
  match h.ended with
  | some cause => boundaryEnds s cause h.after
  | none => boundaryGoes s h.fresh h.after

/-- A unit boundary (R13 and every rule that acts on it): as it occurs the tick count returns to 0 (R26). -/
def unitBoundaryTick (s : State) : State := boundaryActs (s.withSeq { s.seq with tickCount := 0 })

end Sys2Proof.Machine
end

