-- ==== Sys2Proof/Machine/Reply.lean ====
section
/-! DEFINITION. How a request is performed (R173, R174, R176): the head of the request queue, its checks, its reply. -/

namespace Sys2Proof.Machine

/-- What the block that owns a request answers: the outcome, the reply data and the state with every change made. -/
structure Answer where
  outcome : ReplyOutcome
  data : List Byte
  after : State

/-- An OK answer, and the refusals that carry no data. -/
def accept (data : List Byte) (s : State) : Answer := ⟨.ok, data, s⟩
def refuse (o : ReplyOutcome) (s : State) : Answer := ⟨o, [], s⟩

/-- NO_SUCH_INDEX, IN_USE and BAD_SHOW echo an index, STALE the current generation (R59). -/
def refuseIndex (o : ReplyOutcome) (i : Nat) (s : State) : Answer := ⟨o, be 2 i, s⟩
def refuseStale (generation : Nat) (s : State) : Answer := ⟨.stale, be 2 generation, s⟩

/-- The length check of R174: a block of another length is refused BAD_PARAM. -/
def sized (n : Nat) (f : List Byte → State → Answer) (p : List Byte) (s : State) : Answer :=
  if p.length = n then f p s else refuse .badParam s

/-- Main power is present: with it absent nothing but the booth clock runs (R94, R191). -/
def powered (s : State) : Bool := s.supplies.main

/-- The head of the request queue where it is one a command performs and the reply list has a free place (R173). -/
def headRequest (is : Request → Bool) (s : State) : Option Request :=
  match s.mgmt.queue with
  | r :: _ =>
    if powered s && decide (s.mgmt.replies.length < Config.replyPlaces) && is r then some r else none
  | [] => none

/-- A request answered (R173): it leaves the queue and its reply joins the end of the reply list. -/
def answered (r : Request) (a : Answer) : State :=
  a.after.withMgmt { a.after.mgmt with
    queue := a.after.mgmt.queue.drop 1
    replies := a.after.mgmt.replies ++ [⟨r.tag, r.kind, a.outcome, a.data⟩] }

/-- The head of the queue performed where it is one the command performs; else it waits (R173, assumption log 4). -/
def perform (is : Request → Bool) (f : List Byte → State → Answer) (s : State) : State :=
  match headRequest is s with
  | some r => answered r (f r.params s)
  | none => s

/-- Requests of a kind code. -/
def ofKind (k : Nat) (r : Request) : Bool := r.kind == k

/-- Performs the head where it is of the kind code given: the shape of every request's meaning. -/
def performs (k : Nat) (f : List Byte → State → Answer) (s : State) : Host.Outcome State Fault Refusal :=
  .next (perform (ofKind k) f s)

end Sys2Proof.Machine
end

