-- ==== Sys2Proof/Machine/Cells.lean ====
section
/-! DEFINITION. The cells of the inbound lane as commands (R40 to R51, R172) and the return lane (R56, R189, R190). -/

namespace Sys2Proof.Machine

/-! ### Inbound cells -/

/-- A cell that arrives while main power is present (R40, assumption log 3). -/
def arrives (c : Cell) (s : State) : Host.Outcome State Fault Refusal :=
  .next (if powered s then receiveCell c s else s)

/-- A FILL cell arrives (R40, R42). -/
def execFill (c : Cell) (s : State) : Host.Outcome State Fault Refusal := arrives c s
/-- An ESSENCE cell arrives (R44 to R50). -/
def execEssence (c : Cell) (s : State) : Host.Outcome State Fault Refusal := arrives c s
/-- A RESOURCE cell arrives (R51, R120, R121). -/
def execResource (c : Cell) (s : State) : Host.Outcome State Fault Refusal := arrives c s
/-- A MANAGE cell arrives (R172, R173). -/
def execManage (c : Cell) (s : State) : Host.Outcome State Fault Refusal := arrives c s
/-- A cell arrives that fails R41; what its header says decides (assumption log 30). -/
def execInvalidCell (c : Cell) (s : State) : Host.Outcome State Fault Refusal := arrives c s

/-! ### Return cells (R56, R57) -/

/-- The first 12 bytes of a return cell's header: version 1, kind, both marks with slot 0, segment, sequence, payload
length, unit number 0. -/
def returnHead (kind seg sequence length : Nat) : List Byte :=
  [1, BitVec.ofNat 8 kind, 0xC0, BitVec.ofNat 8 seg] ++ be 2 sequence ++ be 2 length ++ be 4 0

/-- A header of 14 bytes from a list. -/
def headerOf (l : List Byte) : Vector Byte 14 := bankOf 14 (fun i => l.getD i 0)

/-- A return cell (R56): its header check made as R41 gives. -/
def returnCell (kind seg sequence : Nat) (payload : List Byte) : Cell :=
  let h := returnHead kind seg sequence payload.length
  ⟨headerOf (h ++ be 2 (crc16 h).toNat), payload⟩

/-- The return lane begins to send a cell: the return sequence number is given to it (R56). -/
def ReturnLane.begin (kind seg : Nat) (payload : List Byte) (x : ReturnLane) : ReturnLane :=
  { x with
    sending := some (returnCell kind seg x.sequence payload)
    sequence := (x.sequence + 1) % 65536 }

/-- The waiting PACE cell sent (R190 step 1). -/
def sendPace (x : Pace) (s : State) : State :=
  s.withLane { s.lane.begin 6 x.seg (paceBytes x) with pace := none }

/-- The oldest reply sent (R190 step 2). -/
def sendReply (r : Reply) (rest : List Reply) (s : State) : State :=
  (s.withMgmt { s.mgmt with replies := rest }).withLane (s.lane.begin 4 0 (replyBytes r.outcome.code r))

/-- The head of the report queue leaves, and with losses counted REPORTS_LOST takes its place (R189). -/
def reportLeaves (rest : List Report) (s : State) : ReportUnit :=
  if 0 < s.reports.lost then
    { s.reports with
      queue := rest ++ [stamped .reportsLost (showingNow s) s.reports.lost 0 s]
      lost := 0 }
  else { s.reports with queue := rest }

/-- The head report sent (R190 step 3). -/
def sendReport (r : Report) (rest : List Report) (s : State) : State :=
  (s.withReports (reportLeaves rest s)).withLane (s.lane.begin 5 0 (reportBytes r))

/-- The arbiter's choice on a free lane (R190): PACE, the oldest reply, the head report, or nothing. -/
def sendNext (s : State) : State :=
  match s.lane.pace, s.mgmt.replies, s.reports.queue with
  | some x, _, _ => sendPace x s
  | none, r :: rest, _ => sendReply r rest s
  | none, [], r :: rest => sendReport r rest s
  | none, [], [] => s

/-- The lane is free. -/
def laneFree (s : State) : Bool := s.lane.sending.isNone

/-- CELL_SEND_START (R190). -/
def execCellSendStart (s : State) : Host.Outcome State Fault Refusal :=
  .next (if powered s && laneFree s then sendNext s else s)

/-- CELL_SEND_END: the last byte has gone and the lane is free (R190). -/
def execCellSendEnd (s : State) : Host.Outcome State Fault Refusal :=
  .next (if powered s then s.withLane { s.lane with sending := none } else s)

end Sys2Proof.Machine
end

