-- ==== Sys2Proof/Machine/Events.lean ====
section
/-! DEFINITION. The events of media time, booth time, the booth lines and the unpacking engine as commands. Each
acts where its event is due in the state it meets, and else leaves the state as it is (assumption log 3). -/

namespace Sys2Proof.Machine

/-- An event that acts where it is due. -/
def whenDue (due : Bool) (f : State → State) (s : State) : Host.Outcome State Fault Refusal :=
  .next (if due then f s else s)

/-! ### Media time -/

/-- A unit boundary may come: main power present and the unit clock running (R26). -/
def boundaryDue (s : State) : Bool := powered s && s.seq.clockRunning

/-- UNIT_BOUNDARY (R13, R26): the ticks left in the unit pass, the tick count reaches the ticks per unit, and the
boundary occurs (assumption log 1). -/
def execUnitBoundary (s : State) : Host.Outcome State Fault Refusal := whenDue (boundaryDue s) unitBoundaryTick s

/-- The boundary at hand ends the last lead unit (R13 step 1, assumption log 5). -/
def leadEndDue (s : State) : Bool := boundaryDue s && s.seq.state == .lead && decide (s.seq.leadRemaining ≤ 1)

/-- LEAD_END (R13): the boundary at which the lead units reach 0. -/
def execLeadEnd (s : State) : Host.Outcome State Fault Refusal := whenDue (leadEndDue s) unitBoundaryTick s

/-- The boundary at hand leaves a starved pause pending (R22, assumption log 5). -/
def starvedDue (s : State) : Bool := boundaryDue s && (unitBoundaryTick s).seq.pend.pause == some .starved

/-- STARVED (R22): the boundary at which the starvation count reaches its limit. -/
def execStarved (s : State) : Host.Outcome State Fault Refusal := whenDue (starvedDue s) unitBoundaryTick s

/-- A sample instant may come: while the unit clock runs, the unit in progress has one left (R98). -/
def sampleDue (s : State) : Bool :=
  powered s && (!s.seq.clockRunning || decide (s.sound.instant < contextSamples s.seq))

/-- SAMPLE_INSTANT (R98). -/
def execSampleInstant (s : State) : Host.Outcome State Fault Refusal := whenDue (sampleDue s) sampleTick s

/-- What the caption line carries at one place of a byte time (R61). -/
inductive LineBit where
  | start
  | data (level : Bool)
  | stop
deriving DecidableEq, Repr

/-- The ten bits of a byte on the caption line (R61): a start bit, 8 data bits with the least significant first, and a
stop bit. -/
def captionFrame (b : Byte) : List LineBit := .start :: (List.range 8).map (fun k => .data (b.getLsbD k)) ++ [.stop]

/-- What the caption line carries over the byte time in progress: the frame of the byte being sent, or its rest at the
stop level (R61, R133). -/
def CaptionLine.carries (x : CaptionLine) : List LineBit :=
  match x.sending with
  | some b => captionFrame b
  | none => List.replicate 10 .stop

/-- A caption byte time (R133): the oldest byte of the ring leaves and is sent, or the line rests. -/
def CaptionLine.byteTime (x : CaptionLine) : CaptionLine := ⟨x.ring.drop 1, x.ring.head?⟩

/-- BYTE_TIME (R133). -/
def execByteTime (s : State) : Host.Outcome State Fault Refusal :=
  whenDue (powered s) (fun s => s.withCaption s.caption.byteTime) s

/-! ### Booth time -/

/-- The divider runs while main power or the backup supply is present (R94). -/
def dividerRuns (s : State) : Bool := s.supplies.main || s.supplies.backup

/-- DIVIDER_STEP (R94, R21). -/
def execDividerStep (s : State) : Host.Outcome State Fault Refusal := whenDue (dividerRuns s) dividerTick s

/-- The next step reaches the pause limit (R21, assumption log 5). -/
def pauseTimeoutDue (s : State) : Bool :=
  powered s && s.seq.state == .paused && !s.seq.pend.resume && !s.seq.pend.timeout && decide (0 < s.seq.pauseLimit) &&
    decide (256 * s.seq.pauseLimit ≤ s.seq.pauseSteps + 1)

/-- PAUSE_TIMEOUT (R21): the divider step at which the pause steps reach the limit. -/
def execPauseTimeout (s : State) : Host.Outcome State Fault Refusal := whenDue (pauseTimeoutDue s) dividerTick s

/-- The next step passes 255 (R94, assumption log 5). -/
def boothSecondDue (s : State) : Bool := dividerRuns s && decide (255 ≤ s.clock.fraction)

/-- BOOTH_SECOND (R94, R93, R55). -/
def execBoothSecond (s : State) : Host.Outcome State Fault Refusal := whenDue (boothSecondDue s) dividerTick s

/-- LANE_DOWN (R42). -/
def execLaneDown (s : State) : Host.Outcome State Fault Refusal := whenDue (powered s) takeLaneDown s

/-- LINE_MILLISECOND (R141, R148), the pins at the levels given. -/
def execLineMillisecond (pins : Mask8) (s : State) : Host.Outcome State Fault Refusal :=
  whenDue (powered s) (lineMillisecondTick pins) s

/-- SPAN_END on an output line (R144, R145). -/
def execSpanEnd (line : Nat) (s : State) : Host.Outcome State Fault Refusal :=
  whenDue (powered s) (fun s => takeSpanEnd s line) s

/-- INPUT_EDGE on an input line (R148 to R151). -/
def execInputEdge (input : Nat) (s : State) : Host.Outcome State Fault Refusal :=
  whenDue (powered s) (fun s => takeEdge s input) s

/-! ### The unpacking engine -/

/-- UNPACKING_ENGINE_TAKE (R64, R66, R67). -/
def execUnpackingEngineTake (s : State) : Host.Outcome State Fault Refusal := whenDue (powered s) engineTake s

/-- UNPACK_COMPLETE (R66, R68 to R71, R122, R126). -/
def execUnpackComplete (s : State) : Host.Outcome State Fault Refusal := whenDue (powered s) engineComplete s

/-- UNPACK_ABANDON (R65). -/
def execUnpackAbandon (s : State) : Host.Outcome State Fault Refusal := whenDue (powered s) engineAbandon s

end Sys2Proof.Machine
end

