-- ==== Sys2Proof/Machine/LineRequests.lean ====
section
/-! DEFINITION. The booth line requests (R146, R147, R151, R152, R182). -/

namespace Sys2Proof.Machine

/-! ### CONFIGURE LINE (R147, R152) -/

/-- A CONFIGURE LINE that row `selector` performs: its line kind byte is the row's, or it has none or one above 1,
which either row refuses (assumption log 4). -/
def configureRow (selector : Nat) (r : Request) : Bool :=
  r.kind == 16 && (byteAt r.params 0 == selector || r.params.isEmpty || decide (1 < byteAt r.params 0))

/-- The line kind is judged before the length (R182). -/
def configured (selector n : Nat) (f : List Byte → State → Answer) (p : List Byte) (s : State) : Answer :=
  if p.isEmpty = true ∨ byteAt p 0 ≠ selector then refuse .badParam s else sized n f p s

def configureOutputLine (p : List Byte) (s : State) : Answer :=
  let n := byteAt p 1
  if 7 < n then refuseIndex .noSuchIndex n s
  else if outConfigOk p 2 = false then refuse .badParam s
  else
    accept [] (s.withLines { s.lines with
      outputs := bankSet s.lines.outputs n (OutLine.configured (readOutConfig p 2)) })

/-- CONFIGURE LINE for an output line (R147). -/
def execConfigureOutputLine (s : State) : Host.Outcome State Fault Refusal :=
  .next (perform (configureRow 0) (configured 0 15 configureOutputLine) s)

def configureInputLine (p : List Byte) (s : State) : Answer :=
  let n := byteAt p 1
  if 7 < n then refuseIndex .noSuchIndex n s
  else if inConfigOk p 2 = false then refuse .badParam s
  else accept [] (configureInput n (readInConfig p 2) s)

/-- CONFIGURE LINE for an input line (R152). -/
def execConfigureInputLine (s : State) : Host.Outcome State Fault Refusal :=
  .next (perform (configureRow 1) (configured 1 10 configureInputLine) s)

/-! ### LINE ACTION (R146) -/

/-- A LINE ACTION that an action's row performs: its action byte is the row's, or it is one that any of the five
rows refuses, of another length or with an unknown action (assumption log 4). -/
def actionRow (a : LineAct) (r : Request) : Bool :=
  r.kind == 17 && (r.params.length != 2 || decide (4 < byteAt r.params 1) || byteAt r.params 1 == a.code)

def Disposition.code : Disposition → Nat
  | .applied => 0 | .ignored => 1 | .busy => 2

/-- LINE ACTION: the action applied, and the line's level, activity and the disposition answered. -/
def lineAction (a : LineAct) (p : List Byte) (s : State) : Answer :=
  let n := byteAt p 0
  if 7 < n then refuseIndex .noSuchIndex n s
  else if 4 < byteAt p 1 then refuse .badParam s
  else
    let r := lineAct n a s
    let x := bankGet r.1.lines.outputs n
    accept (yesNo x.active ++ be 1 x.activity.code ++ be 1 r.2.code) r.1

/-- LINE ACTION of one action (R146). -/
def performsAction (a : LineAct) (s : State) : Host.Outcome State Fault Refusal :=
  .next (perform (actionRow a) (sized 2 (lineAction a)) s)

/-- LINE ACTION SET (R143, R146). -/
def execLineActionSet (s : State) : Host.Outcome State Fault Refusal := performsAction .set s
/-- LINE ACTION CLEAR (R143, R146). -/
def execLineActionClear (s : State) : Host.Outcome State Fault Refusal := performsAction .clear s
/-- LINE ACTION TOGGLE (R143, R146). -/
def execLineActionToggle (s : State) : Host.Outcome State Fault Refusal := performsAction .toggle s
/-- LINE ACTION TRIGGER (R144 to R146). -/
def execLineActionTrigger (s : State) : Host.Outcome State Fault Refusal := performsAction .trigger s
/-- LINE ACTION STOP (R144 to R146). -/
def execLineActionStop (s : State) : Host.Outcome State Fault Refusal := performsAction .stop s

/-! ### READ LINE and READ CAPTURE (R151, R152) -/

/-- An output line as READ LINE returns it, 20 bytes. -/
def outLineBytes (x : OutLine) : List Byte :=
  outConfigBytes x.config ++ yesNo x.active ++ be 1 x.activity.code ++ be 2 x.spanRemaining ++ be 1 x.pulsesDone ++
    be 2 x.busyTriggers

/-- An input line as READ LINE returns it, 12 bytes. -/
def inLineBytes (x : InLine) (held : Bool) : List Byte :=
  inConfigBytes x.config ++ yesNo x.sampled ++ yesNo x.accepted ++ yesNo held ++ yesNo x.unread

/-- What READ LINE answers (R152). The line kind is judged before the line number, so that a line kind above 1 with a
number above 7 is BAD_PARAM: the model's choice (assumption log 41). -/
def readLine (p : List Byte) (s : State) : Answer :=
  let n := byteAt p 1
  if 1 < byteAt p 0 then refuse .badParam s
  else if 7 < n then refuseIndex .noSuchIndex n s
  else if byteAt p 0 = 0 then accept (outLineBytes (bankGet s.lines.outputs n)) s
  else accept (inLineBytes (bankGet s.lines.inputs n) (inHeld n s)) s

/-- READ LINE (R152). -/
def execReadLine (s : State) : Host.Outcome State Fault Refusal := performs 18 (sized 2 readLine) s

/-- A capture record as READ CAPTURE returns it, 20 bytes: empty, and every later byte 0; or the capture with its
unread and overwritten flags. -/
def captureBytes (x : InLine) : List Byte :=
  match x.capture with
  | none => be 1 1 ++ be 19 0
  | some c =>
    [0] ++ yesNo (!c.rising) ++ yesNo c.level ++ be 1 c.state.code ++ be 4 c.showing ++ be 1 c.seg ++
      be 3 c.offset ++ timeBytes c.time ++ yesNo x.unread ++ yesNo x.overwritten

/-- A capture record read: both flags cleared (R151). -/
def InLine.captureRead (x : InLine) : InLine := { x with unread := false, overwritten := false }

def readCapture (p : List Byte) (s : State) : Answer :=
  let n := byteAt p 0
  let x := bankGet s.lines.inputs n
  if 7 < n then refuseIndex .noSuchIndex n s
  else accept (captureBytes x) (setInput n x.captureRead s)

/-- READ CAPTURE (R151). -/
def execReadCapture (s : State) : Host.Outcome State Fault Refusal := performs 19 (sized 1 readCapture) s

end Sys2Proof.Machine
end

