-- ==== Sys2Proof/Machine/ListRequests.lean ====
section
/-! DEFINITION. The show list and automation cue requests (R1 to R3, R24, R153, R180). -/

namespace Sys2Proof.Machine

/-- An entry the running show keeps closed (R24): the current principal, the member played, the partner the current
principal names, and every entry below the principal. -/
def entryInUse (s : State) (i : Nat) : Bool :=
  match s.seq.ctx with
  | some c =>
    s.seq.state != .idle &&
      (i == c.principal || i == c.played || (bankGet s.showList c.principal).alternate == some i ||
        decide (i < c.principal))
  | none => false

/-- What an accepted WRITE ENTRY stores (R2): an entry of class EMPTY takes the defaults of R1. -/
def storedEntry (e : Entry) : Entry := if e.cls = .empty then Entry.emptied e.generation else e

/-- WRITE ENTRY's checks in the order of R2, and the entry replaced. A presence byte above 1 (R176) is judged with step 2,
the model's choice (assumption log 39). -/
def writeEntry (p : List Byte) (s : State) : Answer :=
  let i := byteAt p 0
  let old := bankGet s.showList i
  let e := readEntryBody p 4 (nextGeneration old.generation)
  if 127 < i then refuseIndex .noSuchIndex i s
  else if (upTo p 1 1 && entryCoded p 4 && e.fieldsOk) = false then refuse .badParam s
  else if entryInUse s i then refuseIndex .inUse i s
  else if generationMatches (expected p 1) old.generation = false then refuseStale old.generation s
  else accept (be 2 e.generation) (s.withShowList (bankSet s.showList i (storedEntry e)))

/-- WRITE ENTRY (R2, R24). -/
def execWriteEntry (s : State) : Host.Outcome State Fault Refusal := performs 6 (sized 51 writeEntry) s

def readEntry (p : List Byte) (s : State) : Answer :=
  let e := bankGet s.showList (byteAt p 0)
  if 127 < byteAt p 0 then refuseIndex .noSuchIndex (byteAt p 0) s
  else accept (entryBody e ++ be 2 e.generation) s

/-- READ ENTRY (R1). -/
def execReadEntry (s : State) : Host.Outcome State Fault Refusal := performs 7 (sized 1 readEntry) s

def clearList (_ : List Byte) (s : State) : Answer :=
  if s.seq.state ≠ .idle then refuse .state s
  else accept [] (s.withShowList (bankMap (fun e => Entry.emptied (nextGeneration e.generation)) s.showList))

/-- CLEAR LIST (R3). -/
def execClearList (s : State) : Host.Outcome State Fault Refusal := performs 8 (sized 0 clearList) s

/-- WRITE CUE's checks in the order of R153, and the cue replaced; an index byte is never above 255. A presence byte
above 1 (R176) is judged with step 2, the model's choice (assumption log 39). -/
def writeCue (p : List Byte) (s : State) : Answer :=
  let i := byteAt p 0
  let old := bankGet s.cues i
  if (upTo p 1 1 && cueCoded p 4) = false then refuse .badParam s
  else if generationMatches (expected p 1) old.generation = false then refuseStale old.generation s
  else
    accept (be 2 (nextGeneration old.generation))
      (s.withCues (bankSet s.cues i (readCueBody p 4 (nextGeneration old.generation))))

/-- WRITE CUE (R153). -/
def execWriteCue (s : State) : Host.Outcome State Fault Refusal := performs 9 (sized 14 writeCue) s

def readAutoCue (p : List Byte) (s : State) : Answer :=
  let x := bankGet s.cues (byteAt p 0)
  accept (cueBody x ++ be 2 x.generation) s

/-- READ CUE (R153). -/
def execReadCue (s : State) : Host.Outcome State Fault Refusal := performs 10 (sized 1 readAutoCue) s

end Sys2Proof.Machine
end

