-- ==== Sys2Proof/Machine/ShowRequests.lean ====
section
/-! DEFINITION. Show control, the current record, the log and the report mask (R7, R8, R14 to R16, R20, R23, R169,
R170, R183, R184). -/

namespace Sys2Proof.Machine

/-! ### CUE SHOW (R7, R8, R88, R89, R161) -/

/-- An entry of the show that is not alternate-only names this one. -/
def namedByPrincipal (l : Vector Entry 128) (i : Nat) : Bool :=
  (List.range (showLength l)).any (fun p => !(bankGet l p).altOnly && (bankGet l p).alternate == some i)

/-- The alternate relation of an entry that is not alternate-only and names alternate a (R7 step 2). -/
def alternateOk (l : Vector Entry 128) (i a : Nat) : Bool :=
  let e := bankGet l i
  let m := bankGet l a
  decide (a < showLength l) && a != i && m.altOnly && m.cls == e.cls && m.rate == e.rate && m.alternate == some i

/-- The checks of R7 step 2 on one entry. -/
def entryCueable (l : Vector Entry 128) (i : Nat) : Bool :=
  let e := bankGet l i
  let countOk := match e.cls, e.countPoint with
    | .feature, some c => decide (c < e.duration)
    | _, _ => true
  let pairOk :=
    if e.altOnly then namedByPrincipal l i
    else
      match e.alternate with
      | some a => alternateOk l i a
      | none => true
  countOk && pairOk

/-- The first entry of the show that fails step 2 of R7. -/
def firstBadEntry (l : Vector Entry 128) : Option Nat :=
  (List.range (showLength l)).find? (fun i => !entryCueable l i)

/-- The licences refused at CUE SHOW: CLOCK_UNSET, or LICENCE with the index and kind left uncovered (R88). -/
def licenceRefusal (s : State) : Option (ReplyOutcome × List Byte) :=
  if (examined s.showList).isEmpty then none
  else if s.clock.isSet = false then some (.clockUnset, [])
  else
    match firstUncovered s.showList s.licences s.clock.seconds (examined s.showList) with
    | some (i, k) => some (.licence, be 2 i ++ be 1 k)
    | none => none

/-- The top of the next showing number, at which CUE SHOW is refused (R161). -/
def lastNumber : Nat := 4294967295

/-- The refusal of a CUE SHOW, in the order of R7; none where it is accepted. -/
def cueRefusal (s : State) : Option (ReplyOutcome × List Byte) :=
  if s.seq.state ≠ .idle then some (.state, [])
  else if showLength s.showList = 0 then some (.badShow, be 2 0)
  else
    match firstBadEntry s.showList with
    | some i => some (.badShow, be 2 i)
    | none =>
      if (selectAt s.showList s.seq.flags 0).2 = none then some (.badShow, be 2 0)
      else if s.recorder.nextNumber = lastNumber then some (.tableFull, [])
      else licenceRefusal s

/-- The Sequencer in CUED: unit clock started at its first tick, showing time 0 (R8, R26, R35). -/
def Sequencer.cued (q : Sequencer) : Sequencer :=
  { q with state := .cued, clockRunning := true, tickCount := 0, showingTime := 0 }

/-- The Picture Port as a CUE SHOW is accepted: stores empty, every last outcome GOOD (R76, R77). -/
def PicturePort.cueShow (p : PicturePort) : PicturePort :=
  { p.emptied with concealed := Vector.replicate 4 false }

/-- The licences bound and the record opened (R8 step 1, R89, R161). A show with nothing to examine binds nothing. -/
def bindShow (s : State) : State :=
  let now := s.clock.seconds
  (openShowing (boundSlots s.showList s.licences now) s).withLicences (bindAll s.showList s.licences now)

/-- An accepted CUE SHOW with the principal selected first (R8). -/
def cueAccepted (skipped : List Nat) (principal : Nat) (s : State) : State :=
  let s1 := enterSegment skipped principal (bindShow s)
  let c := contextFor s principal
  let s2 := s1.withSeq s1.seq.cued
  let s3 := (s2.withSound (s2.sound.cueShow c.segment)).withPicture s2.picture.cueShow
  let s4 := sendBlack c.segment s3
  formPace (raise .showState SeqState.cued.code 0 s4)

def cueShow (_ : List Byte) (s : State) : Answer :=
  match cueRefusal s with
  | some r => ⟨r.1, r.2, s⟩
  | none =>
    let r := selectAt s.showList s.seq.flags 0
    match r.2 with
    | some p => accept (be 4 s.recorder.nextNumber) (cueAccepted r.1 p s)
    | none => refuseIndex .badShow 0 s

/-- CUE SHOW (R7, R8). -/
def execCueShow (s : State) : Host.Outcome State Fault Refusal := performs 20 (sized 0 cueShow) s

/-! ### GO, PAUSE, RESUME, STOP (R14 to R16) -/

/-- A control as a request: its outcome, and the control pending where it is OK. -/
def asControl (f : State → ReplyOutcome × State) (_ : List Byte) (s : State) : Answer := ⟨(f s).1, [], (f s).2⟩

/-- GO (R14). -/
def execGo (s : State) : Host.Outcome State Fault Refusal := performs 21 (sized 0 (asControl takeGo)) s
/-- PAUSE (R15). -/
def execPause (s : State) : Host.Outcome State Fault Refusal := performs 22 (sized 0 (asControl takePause)) s
/-- RESUME (R15). -/
def execResume (s : State) : Host.Outcome State Fault Refusal := performs 23 (sized 0 (asControl takeResume)) s
/-- STOP (R16). -/
def execStop (s : State) : Host.Outcome State Fault Refusal := performs 24 (sized 0 (asControl takeStop)) s

/-! ### SET FLAGS and SET LIMITS (R20, R23) -/

def setFlags (p : List Byte) (s : State) : Answer :=
  let s1 := setFlagsBy (maskAt p 0) (maskAt p 1) (maskAt p 2) s
  accept [s1.seq.flags] s1

/-- SET FLAGS (R20). -/
def execSetFlags (s : State) : Host.Outcome State Fault Refusal := performs 25 (sized 3 setFlags) s

/-- The tops of the two limits (R177). -/
def topPause : Nat := 3600
def topStarve : Nat := 240

/-- The Sequencer with new limits, the pause limit tested at once (R23). -/
def Sequencer.limited (pauseLimit starveLimit : Nat) (q : Sequencer) : Sequencer :=
  ({ q with pauseLimit := pauseLimit, starveLimit := starveLimit } : Sequencer).testLimit

/-- A starved pause is already pending. -/
def Sequencer.starvePending (q : Sequencer) : Bool := q.pend.pause == some .starved

def setLimits (p : List Byte) (s : State) : Answer :=
  let a := min topPause (field p 0 2)
  let b := min topStarve (field p 2 2)
  let s1 := s.withSeq (s.seq.limited a b)
  accept (be 2 a ++ be 2 b) (if s1.seq.starves && !s1.seq.starvePending then starve s1 else s1)

/-- SET LIMITS (R23). -/
def execSetLimits (s : State) : Host.Outcome State Fault Refusal := performs 26 (sized 4 setLimits) s

/-! ### READ SHOWING and READ LOG (R170, R183) -/

/-- A segment result as READ SHOWING returns it, 17 bytes. -/
def resultBytes (x : SegResult) : List Byte :=
  be 1 x.index ++ be 1 x.outcome.code ++ be 3 x.unitsOutput ++ be 4 x.pictureConcealed ++ be 4 x.soundConcealed ++
    be 4 x.cuesShown

/-- The results a reply carries: from the first index on, at most 40. -/
def resultsFrom (first : Nat) (r : ShowRecord) : List SegResult := (r.results.drop first).take 40

/-- The fields of a current showing record, from byte 1 of READ SHOWING's data on. -/
def recordBytes (first : Nat) (r : ShowRecord) : List Byte :=
  be 4 r.number ++ timeBytes r.cueTime ++ optTimeBytes r.startTime ++ yesNo r.counted ++ optTimeBytes r.countTime ++
    be 4 r.pauses ++ be 4 r.pausedTime ++ be 4 r.clips ++ be 4 r.cuesDropped ++ be 4 r.badCues ++ be 4 r.missing ++
    optTimeBytes r.endTime ++ be 1 ((r.endCause.map EndCause.code).getD 255) ++ be 1 r.results.length ++
    be 1 (resultsFrom first r).length ++ be 1 r.bound.length ++ r.bound.flatMap (be 1) ++
    be 1 r.countedLicences.length ++ r.countedLicences.flatMap (fun x => be 1 x.1) ++
    (resultsFrom first r).flatMap resultBytes

def readShowing (p : List Byte) (s : State) : Answer :=
  let status := be 1 s.recorder.status.code
  accept (if s.recorder.status = .none then status else status ++ recordBytes (byteAt p 0) s.recorder.record) s

/-- READ SHOWING (R170). -/
def execReadShowing (s : State) : Host.Outcome State Fault Refusal := performs 27 (sized 1 readShowing) s

/-- The record READ LOG asks for: the oldest for 0, else that of the number (R170). -/
def askedRecord (n : Nat) (log : List LogRecord) : Option LogRecord :=
  if n = 0 then log.head? else log.find? (fun r => r.number == n)

/-- The eight places of the counted key ids. -/
def keyPlaces (l : List Id128) : List Byte := (List.range 8).flatMap (fun i => idBytes (l.getD i 0))

/-- The 208 bytes of READ LOG. -/
def logBytes (x : LogRecord) (r : Recorder) : List Byte :=
  be 4 x.number ++ optTimeBytes x.startTime ++ optTimeBytes x.endTime ++ be 1 x.endCause.code ++ yesNo x.counted ++
    optTimeBytes x.countTime ++ yesNo x.feature.isSome ++ idBytes (x.feature.getD 0) ++ be 1 x.keyIds.length ++
    yesNo x.more ++ keyPlaces x.keyIds ++ be 4 x.unitsOutput ++ be 4 x.pictureConcealed ++ be 4 x.soundConcealed ++
    be 4 x.cuesDropped ++ be 4 x.clips ++ yesNo x.collected ++ be 2 r.log.length ++ be 2 (uncollected r.log) ++
    be 4 r.overwrites ++ be 4 ((r.log.head?.map (·.number)).getD 0) ++ be 4 ((r.log.getLast?.map (·.number)).getD 0)

def readLog (p : List Byte) (s : State) : Answer :=
  match askedRecord (field p 0 4) s.recorder.log with
  | some x => accept (logBytes x s.recorder) s
  | none => refuseIndex .noSuchIndex (field p 0 4 % 65536) s

/-- READ LOG (R170). -/
def execReadLog (s : State) : Host.Outcome State Fault Refusal := performs 28 (sized 4 readLog) s

/-! ### MARK COLLECTED and SET REPORT MASK (R169, R184) -/

def markUpTo (p : List Byte) (s : State) : Answer :=
  let r := markCollected (field p 0 4) s.recorder.log
  let s1 := s.withRecorder ({ s.recorder with log := r.1 } : Recorder).rearmed
  accept (be 2 r.2 ++ be 2 (uncollected r.1)) s1

/-- MARK COLLECTED (R169). -/
def execMarkCollected (s : State) : Host.Outcome State Fault Refusal := performs 29 (sized 4 markUpTo) s

/-- The mask as stored: bits that name no kind 0, the bit of REPORTS_LOST 1 (R184). -/
def storedMask (m : BitVec 32) : BitVec 32 := (m &&& ReportUnit.fullMask) ||| 0x00400000#32

def setReportMask (p : List Byte) (s : State) : Answer :=
  let m := storedMask (BitVec.ofNat 32 (field p 0 4))
  accept (be 4 m.toNat) (s.withReports { s.reports with mask := m })

/-- SET REPORT MASK (R184). -/
def execSetReportMask (s : State) : Host.Outcome State Fault Refusal := performs 30 (sized 4 setReportMask) s

end Sys2Proof.Machine
end

