-- ==== Sys2Proof/Machine/SoundRequests.lean ====
section
/-! DEFINITION. The sound requests (R102, R103, R105 to R107, R177, R181). -/

namespace Sys2Proof.Machine

/-- A profile written, and made the pending selection where it is the one in force (R102, R103). -/
def SoundEngine.profileWritten (i : Nat) (x : Profile) (idle : Bool) (q : SoundEngine) : SoundEngine :=
  { q with
    profiles := bankSet q.profiles i x
    pendingSel := if i = q.inForce ∧ idle = false ∧ q.pendingSel = none then some i else q.pendingSel }

/-- WRITE PROFILE's checks in the order of R102, and the profile replaced. A presence byte above 1 (R176) is judged with
step 2, the model's choice (assumption log 39). -/
def writeProfile (p : List Byte) (s : State) : Answer :=
  let i := byteAt p 0
  let old := bankGet s.sound.profiles i
  let x := readProfileBody p 4 (nextGeneration old.generation)
  if 7 < i then refuseIndex .noSuchIndex i s
  else if (upTo p 1 1 && profileCoded p 4) = false then refuse .badParam s
  else if generationMatches (expected p 1) old.generation = false then refuseStale old.generation s
  else
    accept (be 2 x.generation ++ be 2 x.syncDelay)
      (s.withSound (s.sound.profileWritten i x (s.seq.state == .idle)))

/-- WRITE PROFILE (R102, R103). -/
def execWriteProfile (s : State) : Host.Outcome State Fault Refusal := performs 11 (sized 60 writeProfile) s

def readProfile (p : List Byte) (s : State) : Answer :=
  let x := bankGet s.sound.profiles (byteAt p 0)
  if 7 < byteAt p 0 then refuseIndex .noSuchIndex (byteAt p 0) s
  else accept (profileBytes x ++ be 2 x.generation) s

/-- READ PROFILE (R102). -/
def execReadProfile (s : State) : Host.Outcome State Fault Refusal := performs 12 (sized 1 readProfile) s

/-- A run of gains stored from an index on (R105). -/
def lawWritten (first count : Nat) (p : List Byte) (law : Vector Nat 101) : Vector Nat 101 :=
  bankOf 101 (fun k => if first ≤ k ∧ k < first + count then field p (2 + 2 * (k - first)) 2 else bankGet law k)

/-- WRITE FADER LAW: the count must stand in the block, and the block be of the length it gives (R105, R174). -/
def writeFaderLaw (p : List Byte) (s : State) : Answer :=
  let first := byteAt p 0
  let count := byteAt p 1
  if p.length < 2 ∨ p.length ≠ 2 + 2 * count ∨ count = 0 ∨ 100 < first ∨ 101 < first + count then refuse .badParam s
  else accept [] (s.withSound { s.sound with law := lawWritten first count p s.sound.law })

/-- WRITE FADER LAW (R105). -/
def execWriteFaderLaw (s : State) : Host.Outcome State Fault Refusal := performs 13 writeFaderLaw s

def setFader (p : List Byte) (s : State) : Answer :=
  let v := min 100 (byteAt p 0)
  accept (be 1 v) (s.withSound { s.sound with fader := v })

/-- SET FADER (R106, R177). -/
def execSetFader (s : State) : Host.Outcome State Fault Refusal := performs 14 (sized 1 setFader) s

def setMute (p : List Byte) (s : State) : Answer :=
  if upTo p 0 1 = false then refuse .badParam s
  else accept [] (s.withSound { s.sound with mute := flagAt p 0 })

/-- SET MUTE (R107). -/
def execSetMute (s : State) : Host.Outcome State Fault Refusal := performs 15 (sized 1 setMute) s

end Sys2Proof.Machine
end

