-- ==== Sys2Proof/Machine/Start.lean ====
section
/-! DEFINITION. Cold start, warm start, loss of the supplies (R191, R192) and the management reset (R185, R166). -/

namespace Sys2Proof.Machine

/-! ### What every start and reset does to each block -/

/-- The output lines and input lines at rest, configurations kept (R157); the pins as `pin` gives them. -/
def restLines (pin : Nat → Bool) (ms : Nat) (x : LineController) : LineController where
  outputs := bankMap (fun y => State.restOutput y.config) x.outputs
  inputs := bankOf 8 (fun i => State.restInput (bankGet x.inputs i).config (pin i))
  msNumber := ms

/-- The Sequencer after a warm start: limits kept (R5). -/
def Sequencer.restarted (q : Sequencer) : Sequencer :=
  { State.coldSequencer with pauseLimit := q.pauseLimit, starveLimit := q.starveLimit }

/-- Every block's volatile state as a start leaves it, the retained store kept, no report queued (R191). The supplies
are as given. -/
def volatileReset (power : Supplies) (s : State) : State :=
  { State.reset with
    supplies := power
    licences := s.licences
    clock := s.clock
    showList := s.showList
    seq := s.seq.restarted
    sound := s.sound.restart
    lines := restLines (fun _ => false) 0 s.lines
    cues := s.cues
    recorder := s.recorder
    reports := ⟨[], ReportUnit.fullMask, 0⟩
    pending := s.pending }

/-! ### Starts (R191) -/

/-- COLD_START: power-on with the retained-valid flag clear. Every default is written, then the flag is set. -/
def coldStart (s : State) : State := State.reset.withPending s.pending

def execColdStart (s : State) : Host.Outcome State Fault Refusal :=
  .next (if s.supplies.retainedValid then s else coldStart s)

/-- START_WARM's detail words: 1 and the showing's number where an OPEN record is closed (R191). -/
def startWarm (s : State) : State :=
  if s.recorder.status = .opened then raise .startWarm 1 s.recorder.record.number s else raise .startWarm 0 0 s

/-- WARM_START: the retained tables kept, START_WARM queued, the BOUND entries released and an OPEN showing closed
INTERRUPTED (R92, R166), then the lapse check (R93). -/
def warmStart (s : State) : State :=
  lapseCheck (closeShowing .interrupted 0 (releaseAll (startWarm (volatileReset ⟨true, true, true⟩ s))))

/-- WARM_START: power-on with the retained-valid flag set (R191). -/
def execWarmStart (s : State) : Host.Outcome State Fault Refusal :=
  .next (if s.supplies.retainedValid then warmStart s else s)

/-! ### Loss of a supply (R191, R190) -/

/-- MAIN_POWER_LOSS: volatile state and a cell being sent are lost; the retained store, an OPEN record and BOUND
entries among it, and the booth clock stand on the backup supply. -/
def mainPowerLoss (s : State) : State := volatileReset { s.supplies with main := false } s

def execMainPowerLoss (s : State) : Host.Outcome State Fault Refusal :=
  .next (if powered s then mainPowerLoss s else s)

/-- BACKUP_SUPPLY_LOSS: the retained-valid flag reads clear (R191). -/
def execBackupSupplyLoss (s : State) : Host.Outcome State Fault Refusal :=
  .next (s.withSupplies { s.supplies with backup := false, retainedValid := false })

/-! ### The management reset (R185, R166, R192) -/

/-- The Sequencer after a management reset: limits and showing time kept (R5, R35), the stopped unit clock as after a
start (assumption log 37). -/
def Sequencer.managementReset (q : Sequencer) : Sequencer := { q.restarted with showingTime := q.showingTime }

/-- The Track Assembler after a management reset: expected sequence numbers run on, every slot SKIPPING (R44, R46,
R54). -/
def TrackAssembler.managementReset (t : TrackAssembler) : TrackAssembler where
  slots := bankMap (fun x => { x with assembly := .skipping }) t.slots
  queues := Vector.replicate 4 []

/-- Every block's state as a management reset leaves it, the reports emptied under a full mask, before the close of
the showing (R43, R78, R118, R140, R157, R173, R185, R188, R192). -/
def resetBlocks (s : State) : State :=
  { s with
    link := { s.link with counters := LinkCounters.zero, errorArmed := true }
    track := s.track.managementReset
    engine := none
    seq := s.seq.managementReset
    picture := State.coldPicture
    sound := s.sound.restart
    text := State.coldText
    caption := ⟨[], s.caption.sending⟩
    lines := restLines (fun i => (bankGet s.lines.inputs i).pinHigh) s.lines.msNumber s.lines
    mgmt := { s.mgmt with queue := [], lost := 0 }
    reports := ⟨[], ReportUnit.fullMask, 0⟩ }

/-- The management reset: every block's state, the BOUND entries released, an OPEN showing closed RESET with the
length of a pause in progress, and the PACE cell of the entry to IDLE (R55, R92, R166, R185). -/
def managementReset (s : State) : State :=
  formPace (closeShowing .reset (pauseInProgress s.seq) (releaseAll (resetBlocks s)))

/-- RESET answered OK, its reply the last of the list, and carried out; of another length, refused (R174, R185). -/
def resetPerformed (r : Request) (s : State) : State :=
  if r.params = [] then managementReset (answered r (accept [] s)) else answered r (refuse .badParam s)

/-- RESET (R185). -/
def execReset (s : State) : Host.Outcome State Fault Refusal :=
  .next (match headRequest (ofKind 31) s with
    | some r => resetPerformed r s
    | none => s)

end Sys2Proof.Machine
end

