-- ==== Sys2Proof/Machine/StatusRequests.lean ====
section
/-! DEFINITION. BAD_KIND, READ STATUS, SET CLOCK and the licence requests (R174, R178, R95, R82 to R86). -/

namespace Sys2Proof.Machine

/-- A kind code of the table of 10.2. -/
def knownKind (k : Nat) : Bool := decide (1 ≤ k) && decide (k ≤ 31)

/-- BAD_KIND: a kind code that names no request kind (R174). -/
def execBadKind (s : State) : Host.Outcome State Fault Refusal :=
  .next (perform (fun r => !knownKind r.kind) (fun _ s => refuse .badKind s) s)

/-! ### READ STATUS (R178) -/

/-- The eight link counters, 2 bytes each in the order of R43. -/
def counterBytes (c : LinkCounters) : List Byte :=
  be 2 c.headerErrors ++ be 2 c.gaps ++ be 2 c.orphans ++ be 2 c.overruns ++ be 2 c.truncated ++ be 2 c.overlong ++
    be 2 c.late ++ be 2 c.refused

/-- The 44 bytes of READ STATUS. -/
def statusBytes (s : State) : List Byte :=
  be 1 s.seq.state.code ++ be 1 s.seq.seg ++ be 3 s.seq.offset ++ be 4 (showingOrIdle s) ++ [s.seq.flags] ++
    timeBytes (boothNow s) ++ be 6 s.seq.showingTime ++ yesNo s.link.laneUp ++ counterBytes s.link.counters ++
    be 2 s.mgmt.lost ++ be 2 Config.partCode ++ be 1 Config.revision

/-- What READ STATUS clears (R43, R173, R178). -/
def statusCleared (s : State) : State :=
  (s.withLink { s.link with counters := LinkCounters.zero, errorArmed := true }).withMgmt { s.mgmt with lost := 0 }

def readStatus (_ : List Byte) (s : State) : Answer := accept (statusBytes s) (statusCleared s)

/-- READ STATUS (R178). -/
def execReadStatus (s : State) : Host.Outcome State Fault Refusal := performs 1 (sized 0 readStatus) s

/-! ### SET CLOCK (R95) -/

/-- The new seconds are below the current ones less 300, the clock being SET (R95 step 3). -/
def clockBackward (c : BoothTime) (seconds : Nat) : Bool := c.isSet && decide (seconds + 300 < c.seconds)

/-- The clock set, and the lapse check made (R93, R95). -/
def setClock (p : List Byte) (s : State) : Answer :=
  if s.seq.state ≠ .idle then refuse .state s
  else if clockBackward s.clock (field p 0 4) then refuse .clockBackward s
  else accept (be 4 (field p 0 4) ++ be 1 (byteAt p 4)) (lapseCheck (s.withClock ⟨true, field p 0 4, byteAt p 4⟩))

/-- SET CLOCK (R95). -/
def execSetClock (s : State) : Host.Outcome State Fault Refusal := performs 2 (sized 5 setClock) s

/-! ### LOAD KEY (R82 to R84) -/

/-- The fields of LOAD KEY lie in their ranges (R82 step 1, R175). -/
def loadFieldsOk (p : List Byte) : Bool :=
  decide (1 ≤ byteAt p 32) && decide (byteAt p 32 ≤ 7) && decide (field p 33 4 < field p 37 4) && idField p 0 != 0

/-- The entry an accepted LOAD KEY fills (R84). -/
def loadedEntry (p : List Byte) (contentKey : Id128) (generation : Nat) : Licence where
  state := .loaded
  keyId := idField p 0
  composition := idField p 16
  kinds := readKinds p 32
  contentKey := contentKey
  windowStart := field p 33 4
  windowEnd := field p 37 4
  permitted := field p 41 2
  counted := 0
  lastCounted := 0
  generation := nextGeneration generation

/-- LOAD KEY's checks in the order of R82, and the entry filled. -/
def loadKey (p : List Byte) (s : State) : Answer :=
  if loadFieldsOk p = false then refuse .badParam s
  else
    match unwrapKey (p.drop 43) (idField p 0) with
    | none => refuse .badWrap s
    | some key =>
      if (findKey s.licences (idField p 0)).isSome then refuse .duplicate s
      else
        match lowestEmpty s.licences with
        | none => refuse .tableFull s
        | some i =>
          let x := loadedEntry p key (bankGet s.licences i).generation
          accept (be 1 i ++ be 2 x.generation) (s.withLicences (bankSet s.licences i x))

/-- LOAD KEY (R82 to R84). -/
def execLoadKey (s : State) : Host.Outcome State Fault Refusal := performs 3 (sized 91 loadKey) s

/-! ### ERASE KEY and READ KEY (R85, R86) -/

/-- The checks of ERASE KEY in R85's order. A presence byte above 1 (R176), for which R85 has no step, is judged after
NO_SUCH_INDEX and before BOUND: the model's choice (assumption log 39). -/
def eraseKey (p : List Byte) (s : State) : Answer :=
  let i := byteAt p 0
  let x := bankGet s.licences i
  if 63 < i ∨ x.state = .empty then refuseIndex .noSuchIndex i s
  else if upTo p 1 1 = false then refuse .badParam s
  else if x.state = .bound then refuse .bound s
  else if generationMatches (expected p 1) x.generation = false then refuseStale x.generation s
  else
    accept (be 2 (nextGeneration x.generation))
      (s.withLicences (bankSet s.licences i (Licence.emptied (nextGeneration x.generation))))

/-- ERASE KEY (R85). -/
def execEraseKey (s : State) : Host.Outcome State Fault Refusal := performs 4 (sized 4 eraseKey) s

/-- The 52 bytes of READ KEY (R179); the content key is in none of them. -/
def licenceBytes (x : Licence) : List Byte :=
  be 1 x.state.code ++ idBytes x.keyId ++ idBytes x.composition ++ kindsByte x.kinds ++ be 4 x.windowStart ++
    be 4 x.windowEnd ++ be 2 x.permitted ++ be 2 x.counted ++ be 4 x.lastCounted ++ be 2 x.generation

def readKey (p : List Byte) (s : State) : Answer :=
  if 63 < byteAt p 0 then refuseIndex .noSuchIndex (byteAt p 0) s
  else accept (licenceBytes (bankGet s.licences (byteAt p 0))) s

/-- READ KEY (R86). -/
def execReadKey (s : State) : Host.Outcome State Fault Refusal := performs 5 (sized 1 readKey) s

end Sys2Proof.Machine
end

