-- ==== Sys2Proof/Machine/Dispatch.lean ====
section
/-! DEFINITION. The effect of a command on everything but the queue of commands: one arm per row of
spec/opcode_table.json. -/

namespace Sys2Proof.Machine

def exec (i : Instr) (s : State) : Host.Outcome State Fault Refusal :=
  match i with
  | .fill c => Sys2Proof.Machine.execFill c s
  | .essence c => Sys2Proof.Machine.execEssence c s
  | .resource c => Sys2Proof.Machine.execResource c s
  | .manage c => Sys2Proof.Machine.execManage c s
  | .badKind => Sys2Proof.Machine.execBadKind s
  | .readStatus => Sys2Proof.Machine.execReadStatus s
  | .setClock => Sys2Proof.Machine.execSetClock s
  | .loadKey => Sys2Proof.Machine.execLoadKey s
  | .eraseKey => Sys2Proof.Machine.execEraseKey s
  | .readKey => Sys2Proof.Machine.execReadKey s
  | .writeEntry => Sys2Proof.Machine.execWriteEntry s
  | .readEntry => Sys2Proof.Machine.execReadEntry s
  | .clearList => Sys2Proof.Machine.execClearList s
  | .writeCue => Sys2Proof.Machine.execWriteCue s
  | .readCue => Sys2Proof.Machine.execReadCue s
  | .writeProfile => Sys2Proof.Machine.execWriteProfile s
  | .readProfile => Sys2Proof.Machine.execReadProfile s
  | .writeFaderLaw => Sys2Proof.Machine.execWriteFaderLaw s
  | .setFader => Sys2Proof.Machine.execSetFader s
  | .setMute => Sys2Proof.Machine.execSetMute s
  | .configureOutputLine => Sys2Proof.Machine.execConfigureOutputLine s
  | .configureInputLine => Sys2Proof.Machine.execConfigureInputLine s
  | .lineActionSet => Sys2Proof.Machine.execLineActionSet s
  | .lineActionClear => Sys2Proof.Machine.execLineActionClear s
  | .lineActionToggle => Sys2Proof.Machine.execLineActionToggle s
  | .lineActionTrigger => Sys2Proof.Machine.execLineActionTrigger s
  | .lineActionStop => Sys2Proof.Machine.execLineActionStop s
  | .readLine => Sys2Proof.Machine.execReadLine s
  | .readCapture => Sys2Proof.Machine.execReadCapture s
  | .cueShow => Sys2Proof.Machine.execCueShow s
  | .go => Sys2Proof.Machine.execGo s
  | .pause => Sys2Proof.Machine.execPause s
  | .resume => Sys2Proof.Machine.execResume s
  | .stop => Sys2Proof.Machine.execStop s
  | .setFlags => Sys2Proof.Machine.execSetFlags s
  | .setLimits => Sys2Proof.Machine.execSetLimits s
  | .readShowing => Sys2Proof.Machine.execReadShowing s
  | .readLog => Sys2Proof.Machine.execReadLog s
  | .markCollected => Sys2Proof.Machine.execMarkCollected s
  | .setReportMask => Sys2Proof.Machine.execSetReportMask s
  | .reset => Sys2Proof.Machine.execReset s
  | .unitBoundary => Sys2Proof.Machine.execUnitBoundary s
  | .leadEnd => Sys2Proof.Machine.execLeadEnd s
  | .starved => Sys2Proof.Machine.execStarved s
  | .sampleInstant => Sys2Proof.Machine.execSampleInstant s
  | .byteTime => Sys2Proof.Machine.execByteTime s
  | .dividerStep => Sys2Proof.Machine.execDividerStep s
  | .pauseTimeout => Sys2Proof.Machine.execPauseTimeout s
  | .boothSecond => Sys2Proof.Machine.execBoothSecond s
  | .laneDown => Sys2Proof.Machine.execLaneDown s
  | .lineMillisecond pins => Sys2Proof.Machine.execLineMillisecond pins s
  | .spanEnd line => Sys2Proof.Machine.execSpanEnd line s
  | .inputEdge input => Sys2Proof.Machine.execInputEdge input s
  | .unpackingEngineTake => Sys2Proof.Machine.execUnpackingEngineTake s
  | .unpackComplete => Sys2Proof.Machine.execUnpackComplete s
  | .unpackAbandon => Sys2Proof.Machine.execUnpackAbandon s
  | .cellSendStart => Sys2Proof.Machine.execCellSendStart s
  | .cellSendEnd => Sys2Proof.Machine.execCellSendEnd s
  | .coldStart => Sys2Proof.Machine.execColdStart s
  | .warmStart => Sys2Proof.Machine.execWarmStart s
  | .mainPowerLoss => Sys2Proof.Machine.execMainPowerLoss s
  | .invalidCell c => Sys2Proof.Machine.execInvalidCell c s
  | .backupSupplyLoss => Sys2Proof.Machine.execBackupSupplyLoss s

end Sys2Proof.Machine
end

