-- ==== Sys2Proof/Machine/Tick.lean ====
section
/-! DEFINITION. What a step does on an empty queue of commands: one tick of the media oscillator passes, and the tick
that ends a unit is its boundary (R25, R26, assumption log 2). -/

namespace Sys2Proof.Machine

/-- The tick to come is the one at which the tick count reaches the ticks per unit (R26). -/
def Sequencer.atLastTick (q : Sequencer) : Bool := decide (q.ticksPerUnit ≤ q.tickCount + 1)

/-- The tick count risen by 1 (R26). -/
def Sequencer.ticked (q : Sequencer) : Sequencer := { q with tickCount := q.tickCount + 1 }

/-- A tick with the unit clock running (R26): the tick count rises by 1, or reaches the ticks per unit, and the unit
boundary occurs and returns it to 0. -/
def unitClockTick (s : State) : State := if s.seq.atLastTick then unitBoundaryTick s else s.withSeq s.seq.ticked

/-- The part with no command waiting: a media tick passes while main power is present and the unit clock runs. -/
def idleTick (s : State) : State := if boundaryDue s then unitClockTick s else s

end Sys2Proof.Machine
end

