-- ==== Sys2Proof/Safety.lean ====
section
/-! DEFINITION. The terms claims are made in: the parts of the state and what a change leaves alone (`Only`), ranges
of stored fields, the requests that may be performed, and the invariants of a safe run. -/

namespace Sys2Proof.Machine

/-! ### Frames -/

/-- The blocks of the state. -/
inductive Part where
  | supplies | link | track | engine | licences | clock | showList | seq | picture | sound | text | caption | lines
  | cues | recorder | mgmt | reports | lane | pending
deriving DecidableEq, Repr

/-- Two states hold the same block. -/
def State.agree (p : Part) (s t : State) : Prop :=
  match p with
  | .supplies => t.supplies = s.supplies
  | .link => t.link = s.link
  | .track => t.track = s.track
  | .engine => t.engine = s.engine
  | .licences => t.licences = s.licences
  | .clock => t.clock = s.clock
  | .showList => t.showList = s.showList
  | .seq => t.seq = s.seq
  | .picture => t.picture = s.picture
  | .sound => t.sound = s.sound
  | .text => t.text = s.text
  | .caption => t.caption = s.caption
  | .lines => t.lines = s.lines
  | .cues => t.cues = s.cues
  | .recorder => t.recorder = s.recorder
  | .mgmt => t.mgmt = s.mgmt
  | .reports => t.reports = s.reports
  | .lane => t.lane = s.lane
  | .pending => t.pending = s.pending

/-- Every block but those listed is as it was. -/
def Only (ps : List Part) (s t : State) : Prop := ∀ p, p ∉ ps → State.agree p s t

/-- The blocks that the output of a unit can change. -/
def outputParts : List Part :=
  [.track, .engine, .link, .picture, .reports, .sound, .recorder, .text, .caption, .seq, .showList, .licences]

/-- The blocks that a unit boundary can change. -/
def boundaryParts : List Part :=
  [.track, .engine, .link, .picture, .reports, .sound, .recorder, .text, .caption, .seq, .showList, .licences, .lines,
    .lane]

/-! ### Requests that may be performed -/

/-- Request r is at the head of the queue, of the kind given, and may be performed: main power is present and the
reply list has a free place (R173). -/
structure HeadIs (s : State) (kind : Nat) (r : Request) (rest : List Request) : Prop where
  power : s.supplies.main = true
  queue : s.mgmt.queue = r :: rest
  room : s.mgmt.replies.length < Config.replyPlaces
  isKind : r.kind = kind

/-- State t with request r gone from the queue and its reply at the end of the reply list (R173). -/
def replied (r : Request) (o : ReplyOutcome) (data : List Byte) (t : State) : State :=
  t.withMgmt { t.mgmt with
    queue := t.mgmt.queue.drop 1
    replies := t.mgmt.replies ++ [⟨r.tag, r.kind, o, data⟩] }

/-- The rows that perform a request. -/
def requestRows : List Instr :=
  [.badKind, .readStatus, .setClock, .loadKey, .eraseKey, .readKey, .writeEntry, .readEntry, .clearList, .writeCue,
    .readCue, .writeProfile, .readProfile, .writeFaderLaw, .setFader, .setMute, .configureOutputLine,
    .configureInputLine, .lineActionSet, .lineActionClear, .lineActionToggle, .lineActionTrigger, .lineActionStop,
    .readLine, .readCapture, .cueShow, .go, .pause, .resume, .stop, .setFlags, .setLimits, .readShowing, .readLog,
    .markCollected, .setReportMask, .reset]

/-- The rows whose kind has one parameter length, with the kind code and the length (10.2). -/
def fixedLengths : List (Instr × Nat × Nat) :=
  [(.readStatus, 1, 0), (.setClock, 2, 5), (.loadKey, 3, 91), (.eraseKey, 4, 4), (.readKey, 5, 1),
    (.writeEntry, 6, 51), (.readEntry, 7, 1), (.clearList, 8, 0), (.writeCue, 9, 14), (.readCue, 10, 1),
    (.writeProfile, 11, 60), (.readProfile, 12, 1), (.setFader, 14, 1), (.setMute, 15, 1), (.lineActionSet, 17, 2),
    (.lineActionClear, 17, 2), (.lineActionToggle, 17, 2), (.lineActionTrigger, 17, 2), (.lineActionStop, 17, 2),
    (.readLine, 18, 2), (.readCapture, 19, 1), (.cueShow, 20, 0), (.go, 21, 0), (.pause, 22, 0), (.resume, 23, 0),
    (.stop, 24, 0), (.setFlags, 25, 3), (.setLimits, 26, 4), (.readShowing, 27, 1), (.readLog, 28, 4),
    (.markCollected, 29, 4), (.setReportMask, 30, 4), (.reset, 31, 0)]

/-- The rows that act with main power absent: the booth clock's, the starts' and the backup supply's. -/
def unpoweredRows : List Instr := [.dividerStep, .boothSecond, .coldStart, .warmStart, .backupSupplyLoss]

/-- The LINE ACTION rows with their actions. -/
def actionRows : List (Instr × LineAct) :=
  [(.lineActionSet, .set), (.lineActionClear, .clear), (.lineActionToggle, .toggle), (.lineActionTrigger, .trigger),
    (.lineActionStop, .stop)]

/-- The table of R146: the actions a line of a mode ignores. -/
def ignores (m : LineMode) (a : LineAct) : Bool :=
  match m, a with
  | .off, _ => true
  | .level, .trigger => true
  | .level, .stop => true
  | .level, _ => false
  | .pulse, .trigger => false
  | .pulse, .stop => false
  | .pulse, _ => true
  | .train, .trigger => false
  | .train, .stop => false
  | .train, _ => true

/-! ### Ranges of stored fields (R1, R101, R142, R148, R153) -/

/-- A condition names a flag 0-7. -/
def Condition.inRange : Condition → Bool
  | .always => true
  | .flag k _ => decide (k ≤ 7)

/-- Every field of an entry lies in its range of R1. -/
def Entry.inRange (e : Entry) : Bool :=
  decide (e.reel ≤ 255) && decide (e.entryPoint ≤ 16777215) && decide (e.duration ≤ 16777215) &&
    decide (e.fadeIn ≤ 255) && decide (e.fadeOut ≤ 255) && decide (e.cueFirst ≤ 255) && e.cond.inRange &&
    e.fieldsOk

/-- Every field of a cue lies in its range of R153. -/
def AutoCue.inRange (c : AutoCue) : Bool :=
  c.cond.inRange &&
    (match c.anchor with
      | .start e => decide (e ≤ 16777214)
      | .finish e => decide (1 ≤ e) && decide (e ≤ 16777215)
      | .none | .lead | .onPause | .onResume | .onStop | .onShowEnd => true) &&
    (match c.action with
      | .line n _ => decide (n ≤ 7)
      | .mark v => decide (v ≤ 65535)
      | .sound p => decide (p ≤ 7)
      | .flag _ _ _ => true)

/-- A route that output i takes (R101). -/
def Route.inRange (i : Nat) : Route → Bool
  | .none => true
  | .main c => decide (c < 16)
  | .narration c => decide (c < 2) && decide (16 ≤ i)

/-- Every field of a profile lies in its range of R101. -/
def Profile.inRange (x : Profile) : Bool :=
  (List.range 18).all (fun i => (bankGet x.routes i).inRange i && decide (bankGet x.trims i ≤ 65535)) &&
    decide (x.syncDelay ≤ 2000)

/-- Every field of an output line's configuration lies in its range of R142. -/
def OutConfig.inRange (c : OutConfig) : Bool :=
  decide (c.delay ≤ 65535) && decide (1 ≤ c.width) && decide (c.width ≤ 65535) && decide (1 ≤ c.count) &&
    decide (c.count ≤ 255) && decide (1 ≤ c.onTime) && decide (c.onTime ≤ 65535) && decide (1 ≤ c.offTime) &&
    decide (c.offTime ≤ 65535) && (match c.gate with | some g => decide (g.1 ≤ 7) | none => true)

/-- The debounce lies in its range of R148. -/
def InConfig.inRange (c : InConfig) : Bool := decide (c.debounce ≤ 255)

/-! ### Invariants of a safe run -/

/-- Queues and lists hold no more than their places (R52, R119, R133, R167, R172, R173, R186). -/
structure Bounded (s : State) : Prop where
  tracks : ∀ k, k < 4 → (queueOf s k).length ≤ bufferCount k
  requests : s.mgmt.queue.length ≤ Config.requestPlaces
  replies : s.mgmt.replies.length ≤ Config.replyPlaces
  reports : s.reports.queue.length ≤ Config.reportPlaces
  log : s.recorder.log.length ≤ Config.logPlaces
  caption : s.caption.ring.length ≤ Config.captionRing
  store : s.text.store.length ≤ Config.storeEntries

/-- Counts lie in their ranges (R21, R42, R43, R56, R94, R173, R189). -/
structure CountsInRange (s : State) : Prop where
  headerErrors : s.link.counters.headerErrors ≤ top16
  gaps : s.link.counters.gaps ≤ top16
  orphans : s.link.counters.orphans ≤ top16
  overruns : s.link.counters.overruns ≤ top16
  truncated : s.link.counters.truncated ≤ top16
  overlong : s.link.counters.overlong ≤ top16
  late : s.link.counters.late ≤ top16
  refused : s.link.counters.refused ≤ top16
  laneTimer : s.link.laneTimer ≤ 100
  requestsLost : s.mgmt.lost ≤ top16
  reportsLost : s.reports.lost ≤ top32
  starvation : s.seq.starvation ≤ 240
  fraction : s.clock.fraction ≤ 255
  sequence : s.lane.sequence < 65536

/-- The report mask as it may stand (R188): bits 23-31 are 0 and bit 22 is 1. -/
def MaskLegal (u : ReportUnit) : Prop := u.mask.toNat < 8388608 ∧ u.mask.getLsbD 22 = true

/-- The log in strictly rising showing number below the next one, the OPEN record's number above them all (R167). -/
structure LogOrdered (r : Recorder) : Prop where
  rising : (r.log.map (·.number)).Pairwise (· < ·)
  below : ∀ x ∈ r.log, x.number < r.nextNumber
  places : r.log.length ≤ Config.logPlaces
  top : r.nextNumber ≤ lastNumber
  open_above : r.status = .opened → ∀ x ∈ r.log, x.number < r.record.number
  open_below : r.status = .opened → r.record.number < r.nextNumber

/-- A limited entry is not counted past its figure, and a BOUND one has room unless the showing counted it (R90). -/
def CountsHold (number : Nat) (x : Licence) : Prop :=
  0 < x.permitted →
    x.counted ≤ x.permitted ∧ (x.state = .bound → x.counted < x.permitted ∨ x.lastCounted = number)

/-- Every licence entry's count holds; an EMPTY entry reads as R79 gives; with main power present an entry is BOUND
only while a show runs (R89, R90). PAUSED was entered from LEAD or PLAYING. -/
structure LicencesHold (s : State) : Prop where
  counts : ∀ x ∈ s.licences.toList, CountsHold s.recorder.record.number x
  empties : ∀ x ∈ s.licences.toList, x.state = .empty → x = Licence.emptied x.generation
  boundRuns : s.supplies.main = true → s.seq.state = .idle → ∀ x ∈ s.licences.toList, x.state ≠ .bound
  pausedFrom : s.seq.pausedFrom ≠ some .idle

/-- The Sequencer and its context agree: IDLE has no context, no running unit clock and position 0, 0; every other
state has a context whose duration the unit offset stays below, and a running unit clock's tick count stays below its
ticks per unit (R5, R6, R26, R28). -/
structure SequencerHolds (s : State) : Prop where
  durations : ∀ e ∈ s.showList.toList, 1 ≤ e.duration
  idle : s.seq.state = .idle → s.seq.ctx = none ∧ s.seq.clockRunning = false ∧ s.seq.seg = 0 ∧ s.seq.offset = 0
  running : s.seq.state ≠ .idle → s.seq.clockRunning = true ∧
    ∃ c, s.seq.ctx = some c ∧ s.seq.seg = c.played ∧ s.seq.offset < c.segment.duration
  ticks : s.seq.clockRunning = true → s.seq.tickCount < s.seq.ticksPerUnit
  pausedFrom : s.seq.pausedFrom ≠ some .idle

/-- Every delay ring in its canonical form, and the write index a place of it (R116). -/
structure RingsHold (q : SoundEngine) : Prop where
  rings : ∀ r ∈ q.rings.toList, ringWf r = true
  writeIndex : q.writeIndex < Config.ringLength

end Sys2Proof.Machine
end

