-- ==== Sys2Proof/Certificates/Slice0/Obligations.lean ====
section
/-! DEFINITION. The statements for the provers: what each command does and leaves alone, what every step keeps, and
that the codings of requests and replies agree. -/

open Sys2Proof Sys2Proof.Machine

/-! ### The step -/

/-- A step performs the command at the front of the queue on the state with the queue's rest; on an empty queue it is
one media tick (assumption log 2). -/
def Obligations.step_runs_front_command : Prop :=
  (∀ (c : Instr) (rest : List Instr) (s : State), s.pending = c :: rest → step s = exec c (s.withPending rest)) ∧
  (∀ s : State, s.pending = [] → step s = .next (idleTick s))

/-- R26 (assumption log 1, 2): while the unit clock runs, a tick below the last of the unit raises the tick count by 1 and
changes nothing else; the tick that brings it to the ticks per unit is the unit boundary; and UNIT_BOUNDARY is the ticks
left in the unit, that boundary the last of them. With the unit clock stopped or main power absent a tick changes
nothing. That a step on an empty queue is the tick, and UNIT_BOUNDARY all the ticks left, is the model's choice. -/
def Obligations.unit_boundary_is_the_ticks_left : Prop :=
  (∀ s : State, s.supplies.main = true → s.seq.clockRunning = true → s.seq.tickCount < s.seq.ticksPerUnit →
    (∀ k, k < s.seq.ticksPerUnit - s.seq.tickCount →
      times idleTick k s = s.withSeq { s.seq with tickCount := s.seq.tickCount + k }) ∧
    exec .unitBoundary s = .next (times idleTick (s.seq.ticksPerUnit - s.seq.tickCount) s) ∧
    (s.seq.ticksPerUnit - s.seq.tickCount = 1 → exec .unitBoundary s = .next (idleTick s))) ∧
  (∀ s : State, s.supplies.main = false ∨ s.seq.clockRunning = false →
    idleTick s = s ∧ exec .unitBoundary s = .next s)

/-- Every command answers a next state, with the queue of commands as it was. That a command whose event is not due
answers one too, with the state unchanged, is the model's choice (assumption log 3), and so is the queue (assumption
log 1). -/
def Obligations.exec_answers_next_and_keeps_queue : Prop :=
  ∀ (c : Instr) (s : State), ∃ t, exec c s = .next t ∧ t.pending = s.pending

/-- R173: while the reply list is full the head waits, and with no request queued there is none to perform: a request
row then changes nothing. -/
def Obligations.requests_wait_for_reply_place : Prop :=
  ∀ c ∈ requestRows, ∀ s : State, Config.replyPlaces ≤ s.mgmt.replies.length ∨ s.mgmt.queue = [] →
    exec c s = .next s

/-- R191, R94 (assumption log 3): with main power absent no command but those of the booth clock, the starts and the
backup supply changes anything. -/
def Obligations.no_power_no_change : Prop :=
  ∀ (c : Instr) (s : State), s.supplies.main = false → c ∉ unpoweredRows → exec c s = .next s

/-! ### The checks every request meets (R174) -/

/-- R174: a kind code of no request kind is answered BAD_KIND, and a parameter block of another length than the
kind's BAD_PARAM, with no data; the request leaves the queue, its reply joins the list, nothing else changes. -/
def Obligations.kind_and_length_checked : Prop :=
  (∀ (s : State) (k : Nat) (r : Request) (rest : List Request), HeadIs s k r rest → k = 0 ∨ 31 < k →
    exec .badKind s = .next (replied r .badKind [] s)) ∧
  (∀ x ∈ fixedLengths, ∀ (s : State) (r : Request) (rest : List Request), HeadIs s x.2.1 r rest →
    r.params.length ≠ x.2.2 → exec x.1 s = .next (replied r .badParam [] s))

/-! ### Status, clock and licences -/

/-- R178: READ STATUS answers all its figures, each in its place: state, position, showing number, flags, booth time,
showing time, lane, the eight link counters, requests lost, part code and revision. It clears the link counters and the
requests-lost count and re-arms LINK_ERROR; nothing else changes. -/
def Obligations.read_status_answers_and_clears : Prop :=
  (∀ (s : State) (r : Request) (rest : List Request), HeadIs s 1 r rest → r.params = [] →
    exec .readStatus s = .next (replied r .ok (statusBytes s)
      ((s.withLink { s.link with counters := LinkCounters.zero, errorArmed := true }).withMgmt
        { s.mgmt with lost := 0 }))) ∧
  (∀ s : State, (statusBytes s).length = 44 ∧
    field (statusBytes s) 0 1 = s.seq.state.code ∧
    field (statusBytes s) 1 1 = s.seq.seg % 256 ∧
    field (statusBytes s) 2 3 = s.seq.offset % 16777216 ∧
    field (statusBytes s) 5 4 = (if s.seq.state = .idle then 0 else s.recorder.record.number % 4294967296) ∧
    maskAt (statusBytes s) 9 = s.seq.flags ∧
    field (statusBytes s) 10 4 = (if s.clock.isSet then s.clock.seconds % 4294967296 else 0) ∧
    field (statusBytes s) 14 1 = s.clock.fraction % 256 ∧
    field (statusBytes s) 15 1 = (if s.clock.isSet then 3 else 2) ∧
    field (statusBytes s) 16 6 = s.seq.showingTime % 281474976710656 ∧
    flagAt (statusBytes s) 22 = s.link.laneUp ∧
    field (statusBytes s) 23 2 = s.link.counters.headerErrors % 65536 ∧
    field (statusBytes s) 25 2 = s.link.counters.gaps % 65536 ∧
    field (statusBytes s) 27 2 = s.link.counters.orphans % 65536 ∧
    field (statusBytes s) 29 2 = s.link.counters.overruns % 65536 ∧
    field (statusBytes s) 31 2 = s.link.counters.truncated % 65536 ∧
    field (statusBytes s) 33 2 = s.link.counters.overlong % 65536 ∧
    field (statusBytes s) 35 2 = s.link.counters.late % 65536 ∧
    field (statusBytes s) 37 2 = s.link.counters.refused % 65536 ∧
    field (statusBytes s) 39 2 = s.mgmt.lost % 65536 ∧
    field (statusBytes s) 41 2 = 620 ∧ field (statusBytes s) 43 1 = 1)

/-- R95: SET CLOCK in IDLE, not more than 300 s backward, sets the clock, makes the lapse check and answers what it
stored; refused STATE outside IDLE and CLOCK_BACKWARD beyond 300 s. -/
def Obligations.set_clock_sets_or_refuses : Prop :=
  ∀ (s : State) (r : Request) (rest : List Request), HeadIs s 2 r rest → r.params.length = 5 →
    (s.seq.state = .idle → (s.clock.isSet = true → s.clock.seconds ≤ field r.params 0 4 + 300) →
      exec .setClock s = .next (replied r .ok (be 4 (field r.params 0 4) ++ be 1 (byteAt r.params 4))
        (lapseCheck (s.withClock ⟨true, field r.params 0 4, byteAt r.params 4⟩)))) ∧
    (s.seq.state ≠ .idle → exec .setClock s = .next (replied r .state [] s)) ∧
    (s.seq.state = .idle → s.clock.isSet = true → field r.params 0 4 + 300 < s.clock.seconds →
      exec .setClock s = .next (replied r .clockBackward [] s))

/-- R82 to R84: a LOAD KEY whose fields are in range, whose key id no entry holds and for which an entry is EMPTY
fills the lowest EMPTY slot where its blob unwraps, and is refused BAD_WRAP where it does not. -/
def Obligations.load_key_fills_lowest_slot : Prop :=
  ∀ (s : State) (r : Request) (rest : List Request) (i : Nat), HeadIs s 3 r rest → r.params.length = 91 →
    loadFieldsOk r.params = true → findKey s.licences (idField r.params 0) = none → lowestEmpty s.licences = some i →
    exec .loadKey s = .next
      (match unwrapKey (r.params.drop 43) (idField r.params 0) with
        | some key =>
          replied r .ok (be 1 i ++ be 2 (nextGeneration (bankGet s.licences i).generation))
            (s.withLicences (bankSet s.licences i
              { state := .loaded
                keyId := idField r.params 0
                composition := idField r.params 16
                kinds := readKinds r.params 32
                contentKey := key
                windowStart := field r.params 33 4
                windowEnd := field r.params 37 4
                permitted := field r.params 41 2
                counted := 0
                lastCounted := 0
                generation := nextGeneration (bankGet s.licences i).generation }))
        | none => replied r .badWrap [] s)

/-- R85: ERASE KEY, its presence byte 0 or 1, empties an entry that is not BOUND, raising its generation;
NO_SUCH_INDEX, BOUND and STALE otherwise, in that order. A presence byte above 1 is BAD_PARAM after NO_SUCH_INDEX and
before BOUND, the model's choice (assumption log 39). -/
def Obligations.erase_key_empties_or_refuses : Prop :=
  ∀ (s : State) (r : Request) (rest : List Request), HeadIs s 4 r rest → r.params.length = 4 →
    let i := byteAt r.params 0
    let x := bankGet s.licences i
    (63 < i ∨ x.state = .empty → exec .eraseKey s = .next (replied r .noSuchIndex (be 2 i) s)) ∧
    (i ≤ 63 → x.state ≠ .empty → 1 < byteAt r.params 1 → exec .eraseKey s = .next (replied r .badParam [] s)) ∧
    (i ≤ 63 → byteAt r.params 1 ≤ 1 → x.state = .bound → exec .eraseKey s = .next (replied r .bound [] s)) ∧
    (i ≤ 63 → x.state ≠ .empty → x.state ≠ .bound → byteAt r.params 1 = 1 → field r.params 2 2 ≠ x.generation →
      exec .eraseKey s = .next (replied r .stale (be 2 x.generation) s)) ∧
    (i ≤ 63 → byteAt r.params 1 ≤ 1 → x.state ≠ .empty → x.state ≠ .bound → byteAt r.params 1 = 0 ∨ field r.params 2 2 = x.generation →
      exec .eraseKey s = .next (replied r .ok (be 2 (nextGeneration x.generation))
        (s.withLicences (bankSet s.licences i (Licence.emptied (nextGeneration x.generation))))))

/-- R86: READ KEY returns the entry's fields in every state and changes nothing but the reply list and the queue; an
EMPTY entry reads as the fields of R79 with its generation; an index above 63 is refused NO_SUCH_INDEX with the index
echoed. -/
def Obligations.read_key_returns_entry : Prop :=
  ∀ (s : State) (r : Request) (rest : List Request), HeadIs s 5 r rest → r.params.length = 1 →
    let i := byteAt r.params 0
    let x := bankGet s.licences i
    (i ≤ 63 → exec .readKey s = .next (replied r .ok
      (be 1 x.state.code ++ be 16 x.keyId.toNat ++ be 16 x.composition.toNat ++ kindsByte x.kinds ++
        be 4 x.windowStart ++ be 4 x.windowEnd ++ be 2 x.permitted ++ be 2 x.counted ++ be 4 x.lastCounted ++
        be 2 x.generation) s)) ∧
    (LicencesHold s → i ≤ 63 → x.state = .empty →
      exec .readKey s = .next (replied r .ok (List.replicate 50 0 ++ be 2 x.generation) s)) ∧
    (63 < i → exec .readKey s = .next (replied r .noSuchIndex (be 2 i) s))

/-! ### Reads that change nothing -/

/-- R1, R102, R152, R153, R170, R182, R183: READ ENTRY, READ CUE, READ PROFILE, READ LINE, READ SHOWING and READ LOG
answer OK with what is stored and change nothing but the reply list and the queue; an index beyond the table is refused,
and a line kind above 1 is BAD_PARAM whatever the number (assumption log 41). A line's, a record's and a log record's
fields stand in the places that `bodies_read_back` gives. -/
def Obligations.reads_answer_and_change_nothing : Prop :=
  ∀ (s : State) (r : Request) (rest : List Request),
    (HeadIs s 7 r rest → r.params.length = 1 →
      exec .readEntry s = .next (if 127 < byteAt r.params 0 then replied r .noSuchIndex (be 2 (byteAt r.params 0)) s
        else replied r .ok (entryBody (bankGet s.showList (byteAt r.params 0)) ++
          be 2 (bankGet s.showList (byteAt r.params 0)).generation) s)) ∧
    (HeadIs s 10 r rest → r.params.length = 1 →
      exec .readCue s = .next (replied r .ok (cueBody (bankGet s.cues (byteAt r.params 0)) ++
        be 2 (bankGet s.cues (byteAt r.params 0)).generation) s)) ∧
    (HeadIs s 12 r rest → r.params.length = 1 →
      exec .readProfile s = .next (if 7 < byteAt r.params 0 then replied r .noSuchIndex (be 2 (byteAt r.params 0)) s
        else replied r .ok (profileBytes (bankGet s.sound.profiles (byteAt r.params 0)) ++
          be 2 (bankGet s.sound.profiles (byteAt r.params 0)).generation) s)) ∧
    (HeadIs s 18 r rest → r.params.length = 2 → byteAt r.params 0 ≤ 1 →
      exec .readLine s = .next (if 7 < byteAt r.params 1 then replied r .noSuchIndex (be 2 (byteAt r.params 1)) s
        else if byteAt r.params 0 = 0 then replied r .ok (outLineBytes (bankGet s.lines.outputs (byteAt r.params 1))) s
        else replied r .ok (inLineBytes (bankGet s.lines.inputs (byteAt r.params 1)) (inHeld (byteAt r.params 1) s)) s)) ∧
    (HeadIs s 18 r rest → r.params.length = 2 → 1 < byteAt r.params 0 →
      exec .readLine s = .next (replied r .badParam [] s)) ∧
    (HeadIs s 27 r rest → r.params.length = 1 →
      exec .readShowing s = .next (replied r .ok
        (if s.recorder.status = .none then [0]
          else be 1 s.recorder.status.code ++ recordBytes (byteAt r.params 0) s.recorder.record) s)) ∧
    (HeadIs s 28 r rest → r.params.length = 4 →
      exec .readLog s = .next
        (match askedRecord (field r.params 0 4) s.recorder.log with
          | some x => replied r .ok (logBytes x s.recorder) s
          | none => replied r .noSuchIndex (be 2 (field r.params 0 4 % 65536)) s))

/-! ### Show list, cues, profiles -/

/-- R2, R24: a WRITE ENTRY whose index and fields pass replaces every field, or empties the entry for class EMPTY,
raises its generation by 1 and answers it, nothing else changing; while a show runs, one to the current principal, the
member played, the partner the principal names or any entry below the principal is refused IN_USE, whatever generation
it carries; and else one that carries another generation than the entry's is refused STALE with the current one. -/
def Obligations.write_entry_replaces_or_refuses : Prop :=
  ∀ (s : State) (r : Request) (rest : List Request), HeadIs s 6 r rest → r.params.length = 51 →
    let i := byteAt r.params 0
    let x := bankGet s.showList i
    let g := nextGeneration x.generation
    let e := readEntryBody r.params 4 g
    let closed := ∃ c, s.seq.ctx = some c ∧ s.seq.state ≠ .idle ∧
      (i = c.principal ∨ i = c.played ∨ (bankGet s.showList c.principal).alternate = some i ∨ i < c.principal)
    i ≤ 127 → byteAt r.params 1 ≤ 1 → entryCoded r.params 4 = true → e.fieldsOk = true →
    (¬ closed → (byteAt r.params 1 = 0 ∨ field r.params 2 2 = x.generation) →
      exec .writeEntry s = .next (replied r .ok (be 2 g)
        (s.withShowList (bankSet s.showList i (if e.cls = .empty then Entry.emptied g else e))))) ∧
    (closed → exec .writeEntry s = .next (replied r .inUse (be 2 i) s)) ∧
    (¬ closed → byteAt r.params 1 = 1 → field r.params 2 2 ≠ x.generation →
      exec .writeEntry s = .next (replied r .stale (be 2 x.generation) s))

/-- R3: CLEAR LIST in IDLE sets every entry to the defaults and raises each generation by 1; in any other state it is
refused STATE and the list is unchanged. -/
def Obligations.clear_list_empties_every_entry : Prop :=
  ∀ (s : State) (r : Request) (rest : List Request), HeadIs s 8 r rest → r.params = [] →
    (s.seq.state = .idle → ∃ l, exec .clearList s = .next (replied r .ok [] (s.withShowList l)) ∧
      ∀ i, i < 128 → bankGet l i = Entry.emptied (nextGeneration (bankGet s.showList i).generation)) ∧
    (s.seq.state ≠ .idle → exec .clearList s = .next (replied r .state [] s))

/-- R153: a WRITE CUE whose body is coded and whose generation passes replaces every field, raises the generation by 1
and answers it; one of another generation is refused STALE. -/
def Obligations.write_cue_replaces_cue : Prop :=
  ∀ (s : State) (r : Request) (rest : List Request), HeadIs s 9 r rest → r.params.length = 14 →
    let i := byteAt r.params 0
    let g := (bankGet s.cues i).generation
    byteAt r.params 1 ≤ 1 → cueCoded r.params 4 = true →
    (byteAt r.params 1 = 0 ∨ field r.params 2 2 = g →
      exec .writeCue s = .next (replied r .ok (be 2 (nextGeneration g))
        (s.withCues (bankSet s.cues i
          { anchor := readAnchor r.params 4
            cond := readCondition r.params 8
            action := readCueAction r.params 10
            generation := nextGeneration g })))) ∧
    (byteAt r.params 1 = 1 → field r.params 2 2 ≠ g →
      exec .writeCue s = .next (replied r .stale (be 2 g) s))

/-- R102, R103, R177: a WRITE PROFILE whose routes are legal and whose generation passes replaces the profile, its sync
delay clamped to 2,000, and answers the new generation and the delay stored; of the profile in force, outside IDLE and
with no selection pending, it makes that number the pending selection. -/
def Obligations.write_profile_stores_and_selects : Prop :=
  ∀ (s : State) (r : Request) (rest : List Request), HeadIs s 11 r rest → r.params.length = 60 →
    let i := byteAt r.params 0
    let g := nextGeneration (bankGet s.sound.profiles i).generation
    i ≤ 7 → byteAt r.params 1 ≤ 1 → profileCoded r.params 4 = true →
    (byteAt r.params 1 = 0 ∨ field r.params 2 2 = (bankGet s.sound.profiles i).generation) →
    ∃ x : Profile, exec .writeProfile s = .next
        (replied r .ok (be 2 g ++ be 2 (min 2000 (field r.params 58 2)))
          (s.withSound { s.sound with
            profiles := bankSet s.sound.profiles i x
            pendingSel := if i = s.sound.inForce ∧ s.seq.state ≠ .idle ∧ s.sound.pendingSel = none then some i
              else s.sound.pendingSel })) ∧
      x.generation = g ∧ x.syncDelay = min 2000 (field r.params 58 2) ∧
      (∀ k, k < 18 → bankGet x.routes k = routeOfByte (byteAt r.params (4 + k)) ∧
        bankGet x.trims k = field r.params (22 + 2 * k) 2)

/-- R105 to R107, R177: WRITE FADER LAW stores its gains at the first index and after, SET FADER stores the position
clamped to 100 and answers it, SET MUTE stores on or off; each changes nothing else. -/
def Obligations.sound_settings_stored : Prop :=
  ∀ (s : State) (r : Request) (rest : List Request),
    (HeadIs s 13 r rest → r.params.length = 2 + 2 * byteAt r.params 1 → 1 ≤ byteAt r.params 1 →
      byteAt r.params 0 ≤ 100 → byteAt r.params 0 + byteAt r.params 1 ≤ 101 →
      ∃ law, exec .writeFaderLaw s = .next (replied r .ok [] (s.withSound { s.sound with law := law })) ∧
        ∀ k, k < 101 → bankGet law k =
          if byteAt r.params 0 ≤ k ∧ k < byteAt r.params 0 + byteAt r.params 1 then
            field r.params (2 + 2 * (k - byteAt r.params 0)) 2
          else bankGet s.sound.law k) ∧
    (HeadIs s 14 r rest → r.params.length = 1 →
      exec .setFader s = .next (replied r .ok (be 1 (min 100 (byteAt r.params 0)))
        (s.withSound { s.sound with fader := min 100 (byteAt r.params 0) }))) ∧
    (HeadIs s 15 r rest → r.params.length = 1 → byteAt r.params 0 ≤ 1 →
      exec .setMute s = .next (replied r .ok [] (s.withSound { s.sound with mute := byteAt r.params 0 == 1 })))

/-! ### Booth lines -/

/-- R147, R152: a CONFIGURE LINE of an output line that passes leaves the line INACTIVE and IDLE with its counts 0 under
the new configuration, and every other line as it was. One of an input line stores the configuration, takes the latest
sample through the new polarity as the accepted level, keeps the capture record and brings the held inputs set into
line; the other inputs and every output stand. -/
def Obligations.configure_line_starts_line_anew : Prop :=
  ∀ (s : State) (r : Request) (rest : List Request), HeadIs s 16 r rest → byteAt r.params 1 ≤ 7 →
    let n := byteAt r.params 1
    (r.params.length = 15 → byteAt r.params 0 = 0 → outConfigOk r.params 2 = true →
      exec .configureOutputLine s = .next (replied r .ok []
        (s.withLines { s.lines with
          outputs := bankSet s.lines.outputs n
            { config := readOutConfig r.params 2
              active := false
              activity := .idle
              spanRemaining := 0
              pulsesDone := 0
              busyTriggers := 0 } }))) ∧
    (r.params.length = 10 → byteAt r.params 0 = 1 → inConfigOk r.params 2 = true →
      let c := readInConfig r.params 2
      let x := bankGet s.lines.inputs n
      ∃ t, exec .configureInputLine s = .next (replied r .ok [] t) ∧ Only [.lines, .seq] s t ∧
        bankGet t.lines.inputs n = { x with config := c, stable := 0, accepted := x.pinHigh != c.activeLow } ∧
        (∀ m, m ≠ n → bankGet t.lines.inputs m = bankGet s.lines.inputs m) ∧
        t.lines.outputs = s.lines.outputs ∧ t.lines.msNumber = s.lines.msNumber ∧
        inHeld n t = (c.held && (x.pinHigh != c.activeLow)) ∧
        (∀ m, m < 8 → m ≠ n → inHeld m t = inHeld m s) ∧
        t.seq.state = s.seq.state ∧ t.seq.offset = s.seq.offset ∧ t.seq.pend.stop = s.seq.pend.stop ∧
        t.seq.pend.pause = s.seq.pend.pause)

/-- R143, R146: on a LEVEL line SET, CLEAR and TOGGLE make the line ACTIVE, INACTIVE and the other of the two, and are
answered with the level, IDLE as the activity stands, and APPLIED. -/
def Obligations.level_line_takes_set_clear_toggle : Prop :=
  ∀ (s : State) (r : Request) (rest : List Request) (n : Nat), HeadIs s 17 r rest → n ≤ 7 →
    (bankGet s.lines.outputs n).config.mode = .level →
    let x := bankGet s.lines.outputs n
    let leave := fun (level : Bool) => replied r .ok (yesNo level ++ be 1 x.activity.code ++ [0])
      (s.withLines { s.lines with outputs := bankSet s.lines.outputs n { x with active := level } })
    (r.params = [BitVec.ofNat 8 n, 0] → exec .lineActionSet s = .next (leave true)) ∧
    (r.params = [BitVec.ofNat 8 n, 1] → exec .lineActionClear s = .next (leave false)) ∧
    (r.params = [BitVec.ofNat 8 n, 2] → exec .lineActionToggle s = .next (leave (!x.active)))

/-- R144 to R146: TRIGGER on an IDLE pulse begins its delay, or goes ACTIVE at once where there is none; on an IDLE
train it sets pulses done to 0 and starts a pulse unless the gate stands at its stop level; on a line in progress it is
turned away as busy and counted. STOP makes a line in progress INACTIVE and IDLE and changes nothing of an IDLE one. -/
def Obligations.pulse_and_train_take_trigger_and_stop : Prop :=
  ∀ (s : State) (r : Request) (rest : List Request) (n : Nat), HeadIs s 17 r rest → n ≤ 7 →
    let x := bankGet s.lines.outputs n
    let leave := fun (y : OutLine) (d : Byte) => replied r .ok (yesNo y.active ++ be 1 y.activity.code ++ [d])
      (s.withLines { s.lines with outputs := bankSet s.lines.outputs n y })
    (r.params = [BitVec.ofNat 8 n, 3] → x.activity = .idle → x.config.mode = .pulse → 0 < x.config.delay →
      exec .lineActionTrigger s = .next
        (leave { x with active := false, activity := .delaying, spanRemaining := x.config.delay } 0)) ∧
    (r.params = [BitVec.ofNat 8 n, 3] → x.activity = .idle → x.config.mode = .pulse → x.config.delay = 0 →
      exec .lineActionTrigger s = .next
        (leave { x with active := true, activity := .on, spanRemaining := x.config.width } 0)) ∧
    (r.params = [BitVec.ofNat 8 n, 3] → x.activity = .idle → x.config.mode = .train →
      exec .lineActionTrigger s = .next
        (if gateStops s.lines.inputs x.config then
          leave { x with active := false, activity := .idle, spanRemaining := 0, pulsesDone := 0 } 0
        else leave { x with active := true, activity := .on, spanRemaining := x.config.onTime, pulsesDone := 0 } 0)) ∧
    (r.params = [BitVec.ofNat 8 n, 3] → x.activity ≠ .idle → x.config.mode = .pulse ∨ x.config.mode = .train →
      exec .lineActionTrigger s = .next (leave { x with busyTriggers := min 65535 (x.busyTriggers + 1) } 2)) ∧
    (r.params = [BitVec.ofNat 8 n, 4] → x.config.mode = .pulse ∨ x.config.mode = .train →
      exec .lineActionStop s = .next
        (leave (if x.activity = .idle then x else { x with active := false, activity := .idle, spanRemaining := 0 }) 0))

/-- R146: an action that does not belong to the line's mode is answered IGNORED and changes no line; a line number
above 7 is refused NO_SUCH_INDEX, and an unknown action BAD_PARAM. -/
def Obligations.foreign_line_action_ignored : Prop :=
  ∀ x ∈ actionRows, ∀ (s : State) (r : Request) (rest : List Request) (n : Nat), HeadIs s 17 r rest → n ≤ 255 →
    (r.params = [BitVec.ofNat 8 n, BitVec.ofNat 8 x.2.code] → n ≤ 7 →
      ignores (bankGet s.lines.outputs n).config.mode x.2 = true →
      exec x.1 s = .next (replied r .ok
        (yesNo (bankGet s.lines.outputs n).active ++ be 1 (bankGet s.lines.outputs n).activity.code ++ [1]) s)) ∧
    (r.params = [BitVec.ofNat 8 n, BitVec.ofNat 8 x.2.code] → 7 < n →
      exec x.1 s = .next (replied r .noSuchIndex (be 2 n) s)) ∧
    (∀ a, 4 < a → a ≤ 255 → n ≤ 7 → r.params = [BitVec.ofNat 8 n, BitVec.ofNat 8 a] →
      exec x.1 s = .next (replied r .badParam [] s))

/-- R151, R182: READ CAPTURE answers the record with its flags as they stood and clears unread and overwritten. An empty
record reads as 1 and 19 zeros; a capture as 0, then edge, level, Sequencer state, showing number, segment index, unit
offset, booth time, unread and overwritten, 20 bytes. -/
def Obligations.read_capture_clears_flags : Prop :=
  ∀ (s : State) (r : Request) (rest : List Request), HeadIs s 19 r rest → r.params.length = 1 →
    let n := byteAt r.params 0
    let x := bankGet s.lines.inputs n
    (n ≤ 7 → exec .readCapture s = .next (replied r .ok (captureBytes x)
      (s.withLines { s.lines with
        inputs := bankSet s.lines.inputs n { x with unread := false, overwritten := false } }))) ∧
    (7 < n → exec .readCapture s = .next (replied r .noSuchIndex (be 2 n) s)) ∧
    (x.capture = none → captureBytes x = 1 :: List.replicate 19 0) ∧
    (∀ c, x.capture = some c →
      let l := captureBytes x
      l.length = 20 ∧ field l 0 1 = 0 ∧ field l 1 1 = (if c.rising then 0 else 1) ∧ flagAt l 2 = c.level ∧
        field l 3 1 = c.state.code ∧ field l 4 4 = c.showing % 4294967296 ∧ field l 8 1 = c.seg % 256 ∧
        field l 9 3 = c.offset % 16777216 ∧ field l 12 4 = c.time.seconds % 4294967296 ∧
        field l 16 1 = c.time.fraction % 256 ∧ field l 17 1 = (if c.time.isSet then 3 else 2) ∧
        flagAt l 18 = x.unread ∧ flagAt l 19 = x.overwritten)

/-! ### Show control -/

/-- R7, R8, R89, R161: a CUE SHOW that no check refuses opens the next showing, binds the candidates, fills the context
of the first segment selected, starts the unit clock and enters CUED, with the picture stores empty and a PACE cell. -/
def Obligations.cue_show_opens_showing : Prop :=
  ∀ (s : State) (r : Request) (rest : List Request), HeadIs s 20 r rest → r.params = [] → cueRefusal s = none →
    ∃ p t, (selectAt s.showList s.seq.flags 0).2 = some p ∧
      exec .cueShow s = .next (replied r .ok (be 4 s.recorder.nextNumber) t) ∧
      t.seq.state = .cued ∧ t.seq.ctx = some (contextFor s p) ∧ t.seq.seg = (contextFor s p).played ∧
      t.seq.offset = 0 ∧ t.seq.clockRunning = true ∧ t.seq.tickCount = 0 ∧ t.seq.showingTime = 0 ∧
      t.seq.ticksPerUnit = (contextFor s p).segment.rate.ticks ∧
      t.recorder.status = .opened ∧ t.recorder.nextNumber = s.recorder.nextNumber + 1 ∧
      t.recorder.record.number = s.recorder.nextNumber ∧
      t.recorder.record.bound = boundSlots s.showList s.licences s.clock.seconds ∧
      t.recorder.record.startTime = none ∧ t.recorder.record.counted = false ∧
      t.licences = bindAll s.showList s.licences s.clock.seconds ∧
      t.picture.left = none ∧ t.picture.right = none ∧ t.picture.concealed = Vector.replicate 4 false ∧
      t.lane.pace.isSome = true ∧ t.sound.inForce = (contextFor s p).segment.profile ∧
      t.sound.rate = (contextFor s p).segment.srate ∧
      Only [.licences, .recorder, .seq, .reports, .track, .engine, .link, .text, .sound, .picture, .lane] s t

/-- R7, R88, R161: CUE SHOW is refused STATE outside IDLE, BAD_SHOW with 0 for an empty show, with the first bad entry's
index, and with 0 where selection would choose no entry, TABLE_FULL at the top number and CLOCK_UNSET or LICENCE by the
licences, in that order, and then nothing changes. -/
def Obligations.cue_show_refused_changes_nothing : Prop :=
  ∀ (s : State) (r : Request) (rest : List Request), HeadIs s 20 r rest → r.params = [] →
    (s.seq.state ≠ .idle → exec .cueShow s = .next (replied r .state [] s)) ∧
    (s.seq.state = .idle → (bankGet s.showList 0).cls = .empty →
      exec .cueShow s = .next (replied r .badShow (be 2 0) s)) ∧
    (∀ i, s.seq.state = .idle → (bankGet s.showList 0).cls ≠ .empty → firstBadEntry s.showList = some i →
      exec .cueShow s = .next (replied r .badShow (be 2 i) s)) ∧
    (s.seq.state = .idle → (bankGet s.showList 0).cls ≠ .empty → firstBadEntry s.showList = none →
      (∀ i, i < showLength s.showList → (bankGet s.showList i).altOnly = false →
        (bankGet s.showList i).cond.holds s.seq.flags = false) →
      exec .cueShow s = .next (replied r .badShow (be 2 0) s)) ∧
    (s.seq.state = .idle → (bankGet s.showList 0).cls ≠ .empty → firstBadEntry s.showList = none →
      (selectAt s.showList s.seq.flags 0).2 ≠ none → s.recorder.nextNumber = 4294967295 →
      exec .cueShow s = .next (replied r .tableFull [] s)) ∧
    (s.seq.state = .idle → (bankGet s.showList 0).cls ≠ .empty → firstBadEntry s.showList = none →
      (selectAt s.showList s.seq.flags 0).2 ≠ none → s.recorder.nextNumber ≠ 4294967295 →
      examined s.showList ≠ [] →
      (s.clock.isSet = false → exec .cueShow s = .next (replied r .clockUnset [] s)) ∧
      (∀ i k, s.clock.isSet = true →
        firstUncovered s.showList s.licences s.clock.seconds (examined s.showList) = some (i, k) →
        exec .cueShow s = .next (replied r .licence (be 2 i ++ be 1 k) s)))

/-- R14 to R16: GO in CUED or HOLD with no held input makes the go pending; HELD with one, STATE elsewhere. STOP in every
state but IDLE makes the stop pending; in IDLE it is refused STATE. PAUSE in LEAD or PLAYING makes the pause pending with
cause OPERATOR and clears a pending resume; in PAUSED it clears a pending resume, and then the limit is tested (R21);
elsewhere STATE. RESUME in PAUSED makes the resume pending, HELD with a held input; in LEAD or PLAYING it clears a
pending pause, HELD with a held input, STATE with no pause pending; elsewhere STATE. -/
def Obligations.controls_become_pending : Prop :=
  ∀ (s : State) (r : Request) (rest : List Request), r.params = [] →
    (HeadIs s 21 r rest → exec .go s = .next
      (if s.seq.state = .cued ∨ s.seq.state = .hold then
        (if s.seq.held = 0 then
          replied r .ok [] (s.withSeq { s.seq with pend := { s.seq.pend with go := true } })
        else replied r .held [] s)
      else replied r .state [] s)) ∧
    (HeadIs s 24 r rest → exec .stop s = .next
      (if s.seq.state = .idle then replied r .state [] s
      else replied r .ok [] (s.withSeq { s.seq with pend := { s.seq.pend with stop := true } }))) ∧
    (HeadIs s 22 r rest →
      (s.seq.state = .lead ∨ s.seq.state = .playing →
        exec .pause s = .next (replied r .ok [] (s.withSeq { s.seq with
          pend := { s.seq.pend with pause := some .operator, resume := false } }))) ∧
      (s.seq.state = .paused → s.seq.pend.resume = false → exec .pause s = .next (replied r .ok [] s)) ∧
      (s.seq.state = .paused → s.seq.pend.resume = true →
        exec .pause s = .next (replied r .ok [] (s.withSeq { s.seq with
          pend := { s.seq.pend with
            resume := false
            timeout := s.seq.pend.timeout ||
              (decide (0 < s.seq.pauseLimit) && decide (256 * s.seq.pauseLimit ≤ s.seq.pauseSteps)) } }))) ∧
      (s.seq.state = .idle ∨ s.seq.state = .cued ∨ s.seq.state = .hold →
        exec .pause s = .next (replied r .state [] s))) ∧
    (HeadIs s 23 r rest →
      (s.seq.state = .paused →
        exec .resume s = .next (if s.seq.held = 0 then
            replied r .ok [] (s.withSeq { s.seq with pend := { s.seq.pend with resume := true } })
          else replied r .held [] s)) ∧
      (s.seq.state = .lead ∨ s.seq.state = .playing →
        exec .resume s = .next (if s.seq.pend.pause = none then replied r .state [] s
          else if s.seq.held = 0 then
            replied r .ok [] (s.withSeq { s.seq with pend := { s.seq.pend with pause := none } })
          else replied r .held [] s)) ∧
      (s.seq.state = .idle ∨ s.seq.state = .cued ∨ s.seq.state = .hold →
        exec .resume s = .next (replied r .state [] s)))

/-- R20: SET FLAGS is answered OK with the flags after the change, each flag changed as the table gives: inverted with
its toggle bit or with both others, set or cleared with one of them, else unchanged. -/
def Obligations.set_flags_follows_table : Prop :=
  ∀ (s : State) (r : Request) (rest : List Request), HeadIs s 25 r rest → r.params.length = 3 →
    ∃ f : Mask8, exec .setFlags s = .next (replied r .ok [f] (s.withSeq { s.seq with flags := f })) ∧
      ∀ k, k < 8 → f.getLsbD k =
        (if (maskAt r.params 2).getLsbD k then !s.seq.flags.getLsbD k
        else if (maskAt r.params 0).getLsbD k && (maskAt r.params 1).getLsbD k then !s.seq.flags.getLsbD k
        else if (maskAt r.params 0).getLsbD k then true
        else if (maskAt r.params 1).getLsbD k then false
        else s.seq.flags.getLsbD k)

/-- R23, R22, R177: SET LIMITS stores both limits, clamped, answers them, and tests them at once. In PAUSED with no resume
pending a reached pause limit makes the timeout pending. In PLAYING a reached starvation limit makes a starved pause
pending, clears a pending resume and raises STARVED; that a starved pause already pending stands, with no second report,
is the model's reading (assumption log 21). A limit of 0 or one not reached leaves the pending controls as they stood. -/
def Obligations.set_limits_stores_and_tests : Prop :=
  ∀ (s : State) (r : Request) (rest : List Request), HeadIs s 26 r rest → r.params.length = 4 →
    let a := min 3600 (field r.params 0 2)
    let b := min 240 (field r.params 2 2)
    let reached := 0 < a ∧ 256 * a ≤ s.seq.pauseSteps
    let starved := 0 < b ∧ b ≤ s.seq.starvation
    ∃ t, exec .setLimits s = .next (replied r .ok (be 2 a ++ be 2 b) t) ∧ Only [.seq, .reports] s t ∧
      t.seq = { s.seq with pauseLimit := a, starveLimit := b, pend := t.seq.pend } ∧
      (s.seq.state = .paused → t.reports = s.reports ∧
        (reached → s.seq.pend.resume = false → t.seq.pend = { s.seq.pend with timeout := true }) ∧
        (¬ reached ∨ s.seq.pend.resume = true → t.seq.pend = s.seq.pend)) ∧
      (s.seq.state = .playing →
        (starved → s.seq.pend.pause ≠ some .starved →
          t.seq.pend = { s.seq.pend with pause := some .starved, resume := false } ∧
          t.reports = (raise .starved s.seq.starvation s.seq.seg s).reports) ∧
        (¬ starved ∨ s.seq.pend.pause = some .starved → t.seq.pend = s.seq.pend ∧ t.reports = s.reports)) ∧
      (s.seq.state ≠ .paused → s.seq.state ≠ .playing → t.seq.pend = s.seq.pend ∧ t.reports = s.reports)

/-! ### Log, report mask, reset -/

/-- R169: MARK COLLECTED sets the collected flag of every record at or below n, answers how many it marked and the
uncollected count after, and arms LOG_HALF and LOG_FULL as that count is below 128 and 256; nothing else changes. -/
def Obligations.mark_collected_marks_and_arms : Prop :=
  ∀ (s : State) (r : Request) (rest : List Request), HeadIs s 29 r rest → r.params.length = 4 →
    let n := field r.params 0 4
    let log := s.recorder.log.map (fun x => if x.number ≤ n then { x with collected := true } else x)
    let left := (s.recorder.log.filter (fun x => !x.collected && decide (n < x.number))).length
    exec .markCollected s = .next (replied r .ok
      (be 2 (s.recorder.log.filter (fun x => !x.collected && decide (x.number ≤ n))).length ++ be 2 left)
      (s.withRecorder { s.recorder with
        log := log
        halfArmed := s.recorder.halfArmed || decide (left < 128)
        fullArmed := s.recorder.fullArmed || decide (left < 256) }))

/-- R184: SET REPORT MASK stores and answers the mask with bits 23 to 31, which name no report kind, at 0 and bit 22,
REPORTS_LOST, at 1, every other bit as carried; a report whose bit the stored mask has clear then leaves no trace. -/
def Obligations.report_mask_stored_and_tested : Prop :=
  ∀ (s : State) (r : Request) (rest : List Request), HeadIs s 30 r rest → r.params.length = 4 →
    ∃ m : BitVec 32, exec .setReportMask s = .next (replied r .ok (be 4 m.toNat)
        (s.withReports { s.reports with mask := m })) ∧
      m.getLsbD 22 = true ∧ (∀ k, 23 ≤ k → m.getLsbD k = false) ∧
      (∀ k, k < 22 → m.getLsbD k = (BitVec.ofNat 32 (field r.params 0 4)).getLsbD k) ∧
      ∀ (kind : ReportKind) (a b : Nat) (t : State), t.reports.mask = m → m.getLsbD kind.code = false →
        (raise kind a b t).reports = t.reports

/-- R185, R166, R192 and the tables of each chapter: RESET is answered OK after the replies waiting, discards the
requests queued, makes the Sequencer IDLE at once, closes an OPEN showing RESET, releases every BOUND entry and clears
the volatile state, while the link, expected sequence numbers, return lane, booth clock, showing time and every
retained table run on. Every line keeps its configuration and starts at rest (R157), the caption ring and display list
empty (R140), and the reports queued give way to those of the reset itself, under the full mask (R192). That an input
keeps its latest sample (assumption log 13) and the caption line the byte being sent (assumption log 28) is the
model's. -/
def Obligations.reset_carries_out_management_reset : Prop :=
  ∀ (s : State) (r : Request) (rest : List Request), HeadIs s 31 r rest → r.params = [] →
    ∃ t, exec .reset s = .next t ∧
      t.mgmt.replies = s.mgmt.replies ++ [⟨r.tag, r.kind, .ok, []⟩] ∧ t.mgmt.queue = [] ∧ t.mgmt.lost = 0 ∧
      t.seq.state = .idle ∧ t.seq.ctx = none ∧ t.seq.flags = 0 ∧ t.seq.held = 0 ∧ t.seq.clockRunning = false ∧
      t.seq.showingTime = s.seq.showingTime ∧ t.seq.pauseLimit = s.seq.pauseLimit ∧
      t.seq.starveLimit = s.seq.starveLimit ∧
      t.link.laneUp = s.link.laneUp ∧ t.link.laneTimer = s.link.laneTimer ∧ t.link.counters = LinkCounters.zero ∧
      (∀ k, k < 6 → (bankGet t.track.slots k).expected = (bankGet s.track.slots k).expected ∧
        (bankGet t.track.slots k).assembly = .skipping) ∧
      (∀ k, k < 4 → queueOf t k = []) ∧ t.engine = none ∧ t.text = State.coldText ∧
      t.picture = State.coldPicture ∧ t.lane.sending = s.lane.sending ∧ t.lane.sequence = s.lane.sequence ∧
      t.lane.pace.isSome = true ∧ t.clock = s.clock ∧ t.showList = s.showList ∧ t.cues = s.cues ∧
      t.supplies = s.supplies ∧ t.sound.profiles = s.sound.profiles ∧ t.sound.law = s.sound.law ∧
      t.sound.fader = s.sound.fader ∧ t.sound.mute = false ∧ t.sound.master = 0 ∧
      (∀ i, i < 8 → bankGet t.lines.outputs i = ⟨(bankGet s.lines.outputs i).config, false, .idle, 0, 0, 0⟩ ∧
        bankGet t.lines.inputs i = ⟨(bankGet s.lines.inputs i).config, (bankGet s.lines.inputs i).pinHigh, false, 0, none,
          false, false⟩) ∧
      t.lines.msNumber = s.lines.msNumber ∧ t.caption.ring = [] ∧ t.caption.sending = s.caption.sending ∧
      t.reports.mask = 0x007FFFFF#32 ∧
      (∀ x ∈ t.reports.queue, x.kind ∈ [.licenceState, .logHalf, .logFull, .logOverwrite, .showingEnd]) ∧
      ((∀ x ∈ s.licences.toList, x.state ≠ .bound) → t.reports.lost = 0 ∧ t.licences = s.licences ∧
        (s.recorder.status ≠ .opened → t.reports.queue = []) ∧
        (s.recorder.status = .opened → t.reports.queue.getLast?.map (fun x => (x.kind, x.showing, x.detail1, x.detail2)) =
          some (.showingEnd, s.recorder.record.number, 4, if s.recorder.record.counted then 1 else 0))) ∧
      (∀ x ∈ t.licences.toList, x.state ≠ .bound) ∧
      (s.recorder.status = .opened → t.recorder.status = .closed ∧ t.recorder.record.endCause = some .reset ∧
        t.recorder.record.number = s.recorder.record.number) ∧
      (s.recorder.status ≠ .opened → t.recorder = s.recorder)

/-! ### Unit boundaries -/

/-- R13, R35, R55, R72, R73, R75 to R77: at a boundary within a segment being played, with no control pending, the offset
rises by 1, the unit's ticks join the showing time, one record goes out per eye and a PACE cell is formed. The first
record is the left eye's, or the mono one's. Where P0's head is the due unit, READY, and passes the recheck, it leaves the
queue and is output good: its plaintext goes out with its position and becomes the last good unit, and the starvation
count is 0. Else the last good unit is held, or black sent, CONCEALED with the cause: KEY_MISMATCH for a head that fails
the recheck, the cause of a FAILED one, both leaving the queue; NOT_READY for one still in work, MISSING where no unit of
the position is queued, the queue standing. -/
def Obligations.boundary_plays_next_unit : Prop :=
  ∀ (s : State) (c : Context), s.supplies.main = true → s.seq.clockRunning = true → s.seq.state = .playing →
    s.seq.ctx = some c → s.seq.offset + 1 < c.segment.duration → s.seq.pend = PendingControls.none →
    ∃ t, exec .unitBoundary s = .next t ∧ t.seq.state = .playing ∧ t.seq.ctx = some c ∧ t.seq.seg = s.seq.seg ∧
      t.seq.offset = s.seq.offset + 1 ∧ t.seq.showingTime = s.seq.showingTime + s.seq.ticksPerUnit ∧
      t.seq.tickCount = 0 ∧ t.picture.records.map (·.eye) = (if c.segment.stereo then [.left, .right] else [.mono]) ∧
      t.lane.pace.isSome = true ∧ Only boundaryParts s t ∧
      (s.seq.seg = c.played →
        let u := c.segment.entryPoint + (s.seq.offset + 1)
        let first := t.picture.records.head?.map (fun x => (x.content, x.source, x.concealed, x.cause))
        let good := fun (p : List Byte) => first = some (.unit p, some (c.played, u), false, .none) ∧
          t.picture.left = some ⟨c.played, u, p⟩ ∧ bankGet t.picture.concealed 0 = false ∧ t.seq.starvation = 0
        let hidden := fun (x : Cause) => first = some (
            (match s.picture.left with | some g => .held g.plaintext | none => .black),
            s.picture.left.map (fun g => (g.seg, g.unit)), true, x) ∧
          t.picture.left = s.picture.left ∧ bankGet t.picture.concealed 0 = true
        let later := fun (l : List UnitRec) => ∀ v ∈ l, lateFor s 0 (v.seg, .unit v.unit) = false
        (∀ v rest, queueOf s 0 = v :: rest → later rest → v.seg = c.played → v.unit = u →
          (∀ a, v.state = .ready → v.attrs = some a → queueOf t 0 = rest ∧
            if a.isProtected = c.segment.isProtected ∧
              (c.segment.isProtected = true → a.composition = some c.segment.composition) then good v.content
            else hidden .keyMismatch) ∧
          (∀ x, v.state = .failed x → queueOf t 0 = rest ∧ hidden x) ∧
          (v.state = .assembling ∨ v.state = .waiting ∨ v.state = .unpacking →
            queueOf t 0 = v :: rest ∧ hidden .notReady)) ∧
        (later (queueOf s 0) → (∀ v ∈ queueOf s 0, v.seg ≠ c.played ∨ v.unit ≠ u) →
          queueOf t 0 = queueOf s 0 ∧ hidden .missing))

/-- R13, R10 to R12, R27, R18: the boundary that ends the last unit of a segment, with no control pending, raises the
showing time by that unit and selects, after its principal, the first entry of the show that is not alternate-only and
whose condition holds. Its played member's context is filled, at offset 0, with its own ticks per unit, in HOLD where it is
held, else in LEAD with all its lead units to run, else in PLAYING. Where there is no such entry the showing ends COMPLETE
in IDLE at 0, 0 with the unit clock stopped. What that clock holds then is the model's choice (assumption log 37), and so
is that no lead units remain in HOLD and PLAYING (assumption log 43). -/
def Obligations.segment_end_selects_next_or_completes : Prop :=
  ∀ (s : State) (c : Context), s.supplies.main = true → s.seq.clockRunning = true → s.seq.state = .playing →
    s.seq.ctx = some c → s.seq.offset + 1 = c.segment.duration → s.seq.pend = PendingControls.none →
    let fits := fun j => (bankGet s.showList j).altOnly = false ∧ (bankGet s.showList j).cond.holds s.seq.flags = true
    let played := fun (t : State) => ∀ l x, s.recorder.status = .opened → s.recorder.record.results = l ++ [x] →
      x.outcome = .inProgress → t.recorder.record.results[l.length]? = some { x with outcome := .played }
    (∀ p, c.principal < p → p < showLength s.showList → fits p → (∀ j, c.principal < j → j < p → ¬ fits j) →
      let d := contextFor s p
      ∃ t, exec .unitBoundary s = .next t ∧ t.seq.ctx = some d ∧ d.principal = p ∧ t.seq.seg = d.played ∧
        d.played = (match validAlternate s.showList p with
          | some a => if (bankGet s.showList p).dueAlternate then a else p
          | none => p) ∧
        d.segment = (bankGet s.showList d.played).toSegment ∧ t.seq.offset = 0 ∧
        t.seq.state = (if d.segment.hold then .hold else if 0 < d.leadUnits then .lead else .playing) ∧
        t.seq.leadRemaining = (if d.segment.hold then 0 else d.leadUnits) ∧ t.seq.clockRunning = true ∧
        t.seq.tickCount = 0 ∧ t.seq.ticksPerUnit = d.segment.rate.ticks ∧
        t.seq.showingTime = s.seq.showingTime + s.seq.ticksPerUnit ∧ played t ∧ Only boundaryParts s t) ∧
    ((∀ j, c.principal < j → j < showLength s.showList → ¬ fits j) →
      ∃ t, exec .unitBoundary s = .next t ∧ t.seq.state = .idle ∧ t.seq.ctx = none ∧ t.seq.seg = 0 ∧ t.seq.offset = 0 ∧
        t.seq.clockRunning = false ∧ t.seq.tickCount = 0 ∧ t.seq.ticksPerUnit = s.seq.ticksPerUnit ∧
        t.seq.showingTime = s.seq.showingTime + s.seq.ticksPerUnit ∧ played t ∧ Only boundaryParts s t ∧
        (s.recorder.status = .opened →
          t.recorder.status = .closed ∧ t.recorder.record.endCause = some .complete))

/-- R13 steps 5 to 7: a pending go leaves CUED or HOLD for LEAD or PLAYING at offset 0; a pending pause enters PAUSED
from PLAYING with the next unit frozen; a pending resume returns to the state paused from, position as it was; that
no paused-from state is held then is the model's choice (assumption log 43). -/
def Obligations.boundary_takes_pending_controls : Prop :=
  ∀ (s : State) (c : Context), s.supplies.main = true → s.seq.clockRunning = true → s.seq.ctx = some c →
    (s.seq.state = .cued ∨ s.seq.state = .hold → s.seq.pend = { PendingControls.none with go := true } →
      ∃ t, exec .unitBoundary s = .next t ∧ t.seq.ctx = some { c with holdPending := false } ∧
        t.seq.state = (if 0 < c.leadUnits then .lead else .playing) ∧
        (0 < c.leadUnits → t.seq.leadRemaining = c.leadUnits) ∧ (c.leadUnits = 0 → t.seq.offset = 0) ∧
        t.seq.pend.go = false ∧ t.seq.showingTime = s.seq.showingTime) ∧
    (∀ cause, s.seq.state = .playing → s.seq.offset + 1 < c.segment.duration →
      s.seq.pend = { PendingControls.none with pause := some cause } →
      ∃ t, exec .unitBoundary s = .next t ∧ t.seq.state = .paused ∧ t.seq.pausedFrom = some .playing ∧
        t.seq.pauseCause = some cause ∧ t.seq.pauseSteps = 0 ∧ t.seq.offset = s.seq.offset + 1 ∧
        t.seq.pend = PendingControls.none) ∧
    (∀ st, st = .lead ∨ st = .playing → s.seq.state = .paused → s.seq.pausedFrom = some st →
      s.seq.pend = { PendingControls.none with resume := true } →
      ∃ t, exec .unitBoundary s = .next t ∧ t.seq.state = st ∧ t.seq.offset = s.seq.offset ∧
        t.seq.leadRemaining = s.seq.leadRemaining ∧ t.seq.pausedFrom = none ∧ t.seq.pauseSteps = 0 ∧
        t.seq.starvation ≤ 1)

/-- R13 steps 2 and 3, R18, R54, R91, R123, R165: a pending stop or timeout ends the showing at the boundary: IDLE at
0, 0 with the unit clock stopped, no entry BOUND, every queue and the text store empty, and an OPEN record closed with
the cause. The LICENCE_STATE reports of the release carry the position as the boundary before this one left it (R28,
assumption log 8). -/
def Obligations.boundary_ends_showing : Prop :=
  ∀ s : State, s.supplies.main = true → s.seq.clockRunning = true → s.seq.pend.stop = true ∨ s.seq.pend.timeout = true →
    ∃ t, exec .unitBoundary s = .next t ∧ t.seq.state = .idle ∧ t.seq.ctx = none ∧ t.seq.seg = 0 ∧ t.seq.offset = 0 ∧
      t.seq.clockRunning = false ∧ t.seq.pend = PendingControls.none ∧ t.seq.starvation = 0 ∧
      (∀ x ∈ t.licences.toList, x.state ≠ .bound) ∧ (∀ k, k < 4 → queueOf t k = []) ∧ t.text.store = [] ∧
      t.picture.left = none ∧ t.picture.right = none ∧
      (∃ new, t.reports.queue = s.reports.queue ++ new ∧
        ∀ x ∈ new, x.kind = .licenceState → x.seg = s.seq.seg ∧ x.offset = s.seq.offset) ∧
      (s.recorder.status = .opened → t.recorder.status = .closed ∧
        t.recorder.record.endCause =
          some (if s.seq.pend.stop then (if s.seq.state = .cued then .cancelled else .stopped) else .pauseTimeout))

/-- R19, R32, R163, R154 to R156: at a boundary that begins the last unit of a pair's played member the principal's due
member flips and its generation rises, and at no other within the segment. Where the count-point unit of a FEATURE begins,
each BOUND entry of its composition not yet counted for the showing is counted, and the record. The automation cues of the
segment then fire, those of a group in ascending index, each on the flags as they then stand: a FLAG cue changes them, a
LINE cue applies its action, a MARK cue raises MARK where the queue has room. The groups: ON_STOP then ON_SHOW_END; ON_PAUSE;
ON_RESUME then LEAD; the positional cues of the unit that begins. -/
def Obligations.boundary_flips_counts_and_fires_cues : Prop :=
  ∀ (s : State) (c : Context), s.supplies.main = true → s.seq.clockRunning = true → s.seq.ctx = some c →
    let g := c.segment
    let range := (List.range g.cueCount).map (g.cueFirst + ·)
    let fire := fun (f : Anchor → Bool) (p : Mask8 × LineController) =>
      range.foldl (fun (q : Mask8 × LineController) i =>
        let x := bankGet s.cues i
        if f x.anchor && x.cond.holds q.1 then
          match x.action with
          | .flag a b z => (changeFlags q.1 a b z, q.2)
          | .line n y =>
            (q.1, { q.2 with outputs := bankSet q.2.outputs n ((bankGet q.2.outputs n).act q.2.inputs y).1 })
          | .mark _ => q
          | .sound _ => q
        else q) p
    let unitAt := fun (o : Nat) (a : Anchor) =>
      a == .start o || (a == .finish (g.duration - o) && decide (o < g.duration))
    let start := (s.seq.flags, s.lines)
    let left := fun (t : State) => (t.seq.flags, t.lines)
    (s.seq.state = .playing → s.seq.offset + 1 < g.duration → s.seq.pend = PendingControls.none →
      ∃ t, exec .unitBoundary s = .next t ∧ left t = fire (unitAt (s.seq.offset + 1)) start ∧
        t.showList =
          (let e := bankGet s.showList c.principal
          if c.other.isSome ∧ s.seq.offset + 2 = g.duration then
            bankSet s.showList c.principal
              { e with dueAlternate := !e.dueAlternate, generation := (e.generation + 1) % 65536 }
          else s.showList) ∧
        (let here := g.cls = .feature ∧ g.countPoint = some (s.seq.offset + 1)
        let n := s.recorder.record.number
        (∀ i, i < 64 →
          let x := bankGet s.licences i
          bankGet t.licences i =
            if here ∧ x.state = .bound ∧ x.composition = g.composition ∧ x.lastCounted ≠ n then
              { x with
                counted := min 65535 (x.counted + 1)
                lastCounted := n
                generation := (x.generation + 1) % 65536 }
            else x) ∧
        (s.recorder.status = .opened →
          t.recorder.record.counted = (s.recorder.record.counted || decide here) ∧
          t.recorder.record.countTime =
            (if here ∧ s.recorder.record.counted = false then some (boothNow s) else s.recorder.record.countTime))) ∧
        (∀ i v k, i ∈ range → bankGet s.cues i = ⟨.start (s.seq.offset + 1), .always, .mark v, k⟩ →
          s.reports.mask.getLsbD 8 = true → s.reports.lost < 4294967295 → t.reports.lost = s.reports.lost →
          ∃ x ∈ t.reports.queue, x.kind = .mark ∧ x.detail1 = v ∧ x.detail2 = i)) ∧
    (∀ cause, s.seq.state = .playing → s.seq.offset + 1 < g.duration →
      s.seq.pend = { PendingControls.none with pause := some cause } →
      ∃ t, exec .unitBoundary s = .next t ∧ left t = fire (· == .onPause) start) ∧
    (s.seq.state = .paused → s.seq.pend = { PendingControls.none with resume := true } →
      (s.seq.pausedFrom = some .playing →
        ∃ t, exec .unitBoundary s = .next t ∧
          left t = fire (unitAt s.seq.offset) (fire (· == .onResume) start)) ∧
      (s.seq.pausedFrom = some .lead →
        ∃ t, exec .unitBoundary s = .next t ∧
          left t = (if s.seq.leadRemaining = c.leadUnits then fire (· == .lead) (fire (· == .onResume) start)
            else fire (· == .onResume) start))) ∧
    (s.seq.state = .cued ∨ s.seq.state = .hold → s.seq.pend = { PendingControls.none with go := true } →
      ∃ t, exec .unitBoundary s = .next t ∧
        left t = (if 0 < c.leadUnits then fire (· == .lead) start else fire (unitAt 0) start)) ∧
    (s.seq.pend.stop = true →
      ∃ t, exec .unitBoundary s = .next t ∧ left t = fire (· == .onShowEnd) (fire (· == .onStop) start)) ∧
    (s.seq.pend.stop = false → s.seq.pend.timeout = true →
      ∃ t, exec .unitBoundary s = .next t ∧ left t = fire (· == .onShowEnd) start)

/-- R13 step 1, R22, R72 (assumption log 1, 5): LEAD_END is the boundary that ends the last lead unit: PLAYING at offset
0. With no P0 unit queued, the boundary that begins a unit conceals it, and where that brings the starvation count to
the limit STARVED is that boundary and makes the starved pause pending. -/
def Obligations.lead_end_and_starved_are_boundaries : Prop :=
  ∀ (s : State) (c : Context), s.supplies.main = true → s.seq.clockRunning = true → s.seq.ctx = some c →
    s.seq.pend = PendingControls.none →
    (s.seq.state = .lead → s.seq.leadRemaining = 1 →
      ∃ t, exec .leadEnd s = .next t ∧ exec .unitBoundary s = .next t ∧ t.seq.state = .playing ∧ t.seq.offset = 0 ∧
        t.seq.leadRemaining = 0 ∧ t.seq.showingTime = s.seq.showingTime + s.seq.ticksPerUnit ∧ Only boundaryParts s t) ∧
    (s.seq.state = .playing → s.seq.offset + 1 < c.segment.duration → queueOf s 0 = [] → 0 < s.seq.starveLimit →
      s.seq.starveLimit ≤ 240 → s.seq.starvation < 240 → s.seq.starveLimit ≤ s.seq.starvation + 1 →
      ∃ t, exec .starved s = .next t ∧ exec .unitBoundary s = .next t ∧ t.seq.pend.pause = some .starved ∧
        t.seq.starvation = s.seq.starvation + 1 ∧ t.seq.state = .playing ∧ t.seq.offset = s.seq.offset + 1 ∧
        bankGet t.picture.concealed 0 = true)

/-! ### Sound, subtitles and captions -/

/-- R108, R114, R116: at a sample instant every gain takes its step, every output's sample of five stages enters its
ring at the write index, the sample of the delay in force is sent, and the write index advances. Stages 2 to 4 multiply
exactly and divide rounding half up, by 16,384, 16,384 and 256; stage 5 clamps to 24 bits. -/
def Obligations.sample_instant_makes_and_sends : Prop :=
  (∀ x trim master ramp b c d : Int, 16384 * b ≤ x * trim + 8192 → x * trim + 8192 < 16384 * (b + 1) →
    16384 * c ≤ b * master + 8192 → b * master + 8192 < 16384 * (c + 1) →
    256 * d ≤ c * ramp + 128 → c * ramp + 128 < 256 * (d + 1) →
    stage4 x trim master ramp = d ∧
      clamp24 d = (if d < -8388608 then -8388608 else if 8388607 < d then 8388607 else d)) ∧
  ∀ s : State, s.supplies.main = true → s.seq.clockRunning = false ∨ s.sound.instant < contextSamples s.seq →
    RingsHold s.sound → s.sound.delay ≤ 19200 →
    let q := s.sound.stepGains
    let y := fun i => clamp24 (stage4 (q.inputOf i) (bankGet q.trims i : Nat) (if i < 16 then q.master else 16384 : Nat)
      (instantFade s * q.continuity i / 256 : Nat))
    let w := s.sound.writeIndex
    ∃ t, exec .sampleInstant s = .next t ∧ Only [.sound, .recorder, .reports] s t ∧
      t.sound.writeIndex = (w + 1) % 32768 ∧ t.sound.master = stepToward s.sound.master s.sound.masterTarget ∧
      (∀ i, i < 18 → bankGet t.sound.trims i = stepToward (bankGet s.sound.trims i) (bankGet s.sound.working.trims i) ∧
        (∀ j, j < 32768 → ringGet (bankGet t.sound.rings i) j =
          if j = w then y i else ringGet (bankGet s.sound.rings i) j) ∧
        bankGet t.sound.out i = (if s.sound.delay = 0 then y i
          else ringGet (bankGet s.sound.rings i) ((w + 32768 - s.sound.delay) % 32768)) ∧
        -8388608 ≤ y i ∧ y i ≤ 8388607)

/-- R125, R127, R130: as the output of reel unit u begins, each display slot whose cue's out is at or below u is freed;
the comparator takes the cues of its table from its place on whose in is at or below u and below the segment's last
reel unit, and moves to the next, or to none. That a cue whose in lies at the last reel unit is never reached (R125),
even as that unit begins, is the model's choice against R127 and R136 (assumption log 42). Of those taken, in table
order, each whose out is above u enters the lowest display slot then free, its shown flag clear, and is dropped where
all four are busy, with CUE_DROPPED and 1 more cue dropped in the record. The opacity is the lesser of the in-ramp and
the out-ramp of R130, times the cue's own, over 255 and rounding half up. -/
def Obligations.subtitles_released_admitted_and_faded : Prop :=
  (∀ (c : Context) (resumed : Bool) (s : State), s.seq.ctx = some c → s.seq.offset ≠ 0 →
    let last := c.segment.entryPoint + (c.segment.duration - 1)
    let u := c.segment.entryPoint + s.seq.offset
    runText c resumed s = runT1 last u resumed (runT0 last u s)) ∧
  (∀ (s : State) (last u k : Nat), s.text.t0.comparator = some k →
    let t := runT0 last u s
    let taken := (s.text.t0.cues.drop k).takeWhile (fun c => decide (c.inPoint ≤ u ∧ c.inPoint < last))
    let new := taken.filter (fun c => decide (u < c.outPoint))
    let stays := fun i => (bankGet s.text.display i).filter (fun d => decide (u < d.cue.outPoint))
    t.text.t0.cues = s.text.t0.cues ∧
    t.text.t0.comparator = (if k + taken.length < s.text.t0.cues.length then some (k + taken.length) else none) ∧
    (new = [] → (∀ i, i < 4 → bankGet t.text.display i = stays i) ∧ t.reports = s.reports ∧ t.recorder = s.recorder) ∧
    (∀ c i, new = [c] → i < 4 → stays i = none → (∀ j, j < i → stays j ≠ none) →
      bankGet t.text.display i = some ⟨c, false, false⟩ ∧ (∀ j, j < 4 → j ≠ i → bankGet t.text.display j = stays j) ∧
      t.reports = s.reports ∧ t.recorder.record.cuesDropped = s.recorder.record.cuesDropped) ∧
    (∀ c more, new = c :: more → (∀ i, i < 4 → stays i = none) →
      (∀ i, i < 4 → bankGet t.text.display i = (new[i]?).map (fun x => ⟨x, false, false⟩)) ∧
      (new.length ≤ 4 → t.recorder.record.cuesDropped = s.recorder.record.cuesDropped) ∧
      (4 < new.length → s.recorder.status = .opened →
        t.recorder.record.cuesDropped = min 4294967295 (s.recorder.record.cuesDropped + (new.length - 4))) ∧
      t.reports = ((new.drop 4).foldl (fun a x => raise .cueDropped 4 x.number a) s).reports) ∧
    ((∀ i, i < 4 → stays i ≠ none) → new ≠ [] →
      (∀ i, i < 4 → bankGet t.text.display i = stays i) ∧
      (s.recorder.status = .opened →
        t.recorder.record.cuesDropped = min 4294967295 (s.recorder.record.cuesDropped + new.length)) ∧
      t.reports = (new.foldl (fun a x => raise .cueDropped 4 x.number a) s).reports)) ∧
  (∀ (s : State) (last u : Nat), s.text.t0.comparator = none →
    (∀ i, i < 4 → bankGet (runT0 last u s).text.display i =
      (bankGet s.text.display i).filter (fun d => decide (u < d.cue.outPoint))) ∧
    (runT0 last u s).text.t0 = s.text.t0) ∧
  (∀ (c : Cue) (u up down : Nat), c.inPoint ≤ u → u < c.outPoint →
    up = (if c.fadeIn ≤ u - c.inPoint then 255 else 255 * (u - c.inPoint + 1) / (c.fadeIn + 1)) →
    down = (if c.fadeOut ≤ c.outPoint - 1 - u then 255 else 255 * (c.outPoint - 1 - u + 1) / (c.fadeOut + 1)) →
    opacityAt c u = (min up down * c.opacity + 127) / 255 ∧ min up down ≤ 255 ∧
      (c.opacity ≤ 255 → opacityAt c u ≤ c.opacity) ∧ (up = 255 → down = 255 → opacityAt c u = c.opacity))

/-- R61, R133 to R138: at a byte time the oldest byte of the ring leaves and is on the line, framed by a start bit and
a stop bit, its least significant bit first; an empty ring leaves the line resting. A SHOW message of a text of n bytes
joins the ring whole in 6 + n free bytes, is cut to fill 8 or more with CAPTION_TRUNCATED, and else is dropped with
CUE_DROPPED; a CLEAR joins in 4 free bytes, else is dropped. As the output of reel unit u begins, the cues whose out is
at or below u leave the caption display list with a CLEAR, and a cue taken whose out is above u joins its end with a
SHOW (which cues are taken: assumption log 42; a SHOW of 7 bytes in 7 free ones joins whole: log 46); entering PAUSED withdraws each with a CLEAR, the resume shows each
withdrawn again, and a segment end clears the list. -/
def Obligations.captions_queued_and_sent : Prop :=
  (∀ s : State, s.supplies.main = true →
    (∀ b l, s.caption.ring = b :: l → exec .byteTime s = .next (s.withCaption ⟨l, some b⟩)) ∧
    (s.caption.ring = [] → exec .byteTime s = .next (s.withCaption ⟨[], none⟩))) ∧
  (∀ (l : List Byte) (b : Byte), (⟨l, some b⟩ : CaptionLine).carries.length = 10 ∧
    (⟨l, some b⟩ : CaptionLine).carries.head? = some .start ∧
    (∀ k, k < 8 → (⟨l, some b⟩ : CaptionLine).carries[k + 1]? = some (.data (b.getLsbD k))) ∧
    (⟨l, some b⟩ : CaptionLine).carries[9]? = some .stop ∧
    (⟨l, none⟩ : CaptionLine).carries = List.replicate 10 .stop) ∧
  (∀ (s : State) (d : Displayed),
    let n := d.cue.text.length
    let f := 1024 - s.caption.ring.length
    let r := queueShow d s
    (6 + n ≤ f → r.1 = { d with shown := true } ∧ r.2.reports = s.reports ∧
      r.2.caption.ring = s.caption.ring ++ ([2] ++ be 2 d.cue.number ++ [0] ++ be 1 n ++ d.cue.text ++ [3])) ∧
    (8 ≤ f → f < 6 + n → r.1 = { d with shown := true } ∧
      r.2.reports = (raise .captionTruncated d.cue.number (f - 6) s).reports ∧ r.2.caption.ring.length = 1024 ∧
      r.2.caption.ring = s.caption.ring ++
        ([2] ++ be 2 d.cue.number ++ [1] ++ be 1 (f - 6) ++ d.cue.text.take (f - 6) ++ [3])) ∧
    (f < 8 → f < 6 + n → r.1 = d ∧ r.2.caption = s.caption ∧ r.2.reports = (raise .cueDropped 5 d.cue.number s).reports ∧
      (s.recorder.status = .opened →
        r.2.recorder.record.cuesDropped = min 4294967295 (s.recorder.record.cuesDropped + 1)))) ∧
  (∀ (s : State) (n : Nat),
    (s.caption.ring.length + 4 ≤ 1024 →
      queueClear n s = s.withCaption { s.caption with ring := s.caption.ring ++ ([2] ++ be 2 n ++ [4]) }) ∧
    (1024 < s.caption.ring.length + 4 → (queueClear n s).caption = s.caption ∧ (queueClear n s).reports = s.reports ∧
      (s.recorder.status = .opened →
        (queueClear n s).recorder.record.cuesDropped = min 4294967295 (s.recorder.record.cuesDropped + 1)))) ∧
  (∀ (s : State) (last u : Nat),
    let clears := fun (l : List Displayed) =>
      (l.filter (fun d => !d.withdrawn)).flatMap (fun d => [2] ++ be 2 d.cue.number ++ [4])
    let leaving := s.text.captions.filter (fun d => decide (d.cue.outPoint ≤ u))
    let staying := s.text.captions.filter (fun d => decide (u < d.cue.outPoint))
    let taken := (s.text.t1.cues.drop (s.text.t1.comparator.getD s.text.t1.cues.length)).takeWhile
      (fun c => decide (c.inPoint ≤ u ∧ c.inPoint < last))
    let new := taken.filter (fun c => decide (u < c.outPoint))
    (∀ k, s.text.t1.comparator = some k → (runT1 last u false s).text.t1.comparator =
      (if k + taken.length < s.text.t1.cues.length then some (k + taken.length) else none)) ∧
    (new = [] → s.caption.ring.length + (clears leaving).length ≤ 1024 →
      (runT1 last u false s).text.captions = staying ∧ (runT1 last u false s).caption.ring = s.caption.ring ++ clears leaving) ∧
    (∀ c, new = [c] → leaving = [] →
      (runT1 last u false s).text.captions = s.text.captions ++ [(queueShow ⟨c, false, false⟩ s).1] ∧
      (runT1 last u false s).caption = (queueShow ⟨c, false, false⟩ s).2.caption) ∧
    (let again := s.text.captions.filter (fun d => d.withdrawn)
      let shows := again.flatMap (fun d => [2] ++ be 2 d.cue.number ++ [0] ++ be 1 d.cue.text.length ++ d.cue.text ++ [3])
      new = [] → leaving = [] → s.caption.ring.length + shows.length ≤ 1024 →
      (runT1 last u true s).text.captions =
        s.text.captions.map (fun d => if d.withdrawn then { d with withdrawn := false, shown := true } else d) ∧
      (runT1 last u true s).caption.ring = s.caption.ring ++ shows) ∧
    (s.caption.ring.length + (clears s.text.captions).length ≤ 1024 →
      (withdrawCaptions s).text.captions = s.text.captions.map (fun d => { d with withdrawn := true }) ∧
      (withdrawCaptions s).caption.ring = s.caption.ring ++ clears s.text.captions ∧
      (textSegmentEnd s.seq.seg s).text.captions = [] ∧ (textSegmentEnd s.seq.seg s).text.t1 = ⟨[], none, false⟩ ∧
      (textSegmentEnd s.seq.seg s).caption.ring = s.caption.ring ++ clears s.text.captions))

/-! ### Booth time -/

/-- R94, R21, R55, R93: a divider step raises the fraction and, in PAUSED, the pause steps, testing the pause limit; the
step that passes 255 is a booth second, which raises the seconds of a SET clock, makes the lapse check and forms a PACE
cell in IDLE. With main power absent the clock alone runs on the backup supply. That BOOTH_SECOND and PAUSE_TIMEOUT are
whole divider steps, those that bring them, is read from the spec (assumption log 5). -/
def Obligations.divider_steps_and_seconds : Prop :=
  ∀ s : State,
    let second : BoothTime :=
      ⟨s.clock.isSet, if s.clock.isSet then min 4294967295 (s.clock.seconds + 1) else s.clock.seconds, 0⟩
    let limitMet := s.seq.pend.resume = false ∧ 0 < s.seq.pauseLimit ∧ 256 * s.seq.pauseLimit ≤ s.seq.pauseSteps + 1
    let stepped := if s.seq.state = .paused then
        { s.seq with
          pauseSteps := s.seq.pauseSteps + 1
          pend := { s.seq.pend with timeout := s.seq.pend.timeout || decide limitMet } }
      else s.seq
    (s.supplies.main = true → s.clock.fraction < 255 →
      exec .dividerStep s = .next ((s.withClock { s.clock with fraction := s.clock.fraction + 1 }).withSeq stepped) ∧
      (s.seq.state = .paused → s.seq.pend.timeout = false → limitMet → exec .pauseTimeout s = exec .dividerStep s)) ∧
    (s.supplies.main = true → s.clock.fraction = 255 →
      ∃ t, exec .boothSecond s = .next t ∧ exec .dividerStep s = .next t ∧ t.clock = second ∧ t.seq = stepped ∧
        (∀ i, i < 64 →
          let x := bankGet s.licences i
          bankGet t.licences i =
            if s.clock.isSet = true ∧ x.state = .loaded ∧ x.windowEnd ≤ second.seconds then
              { x with state := .lapsed, generation := (x.generation + 1) % 65536 }
            else x) ∧
        (s.seq.state = .idle → t.lane.pace.isSome = true ∧ t.lane.sending = s.lane.sending) ∧
        (s.seq.state ≠ .idle → t.lane = s.lane) ∧ Only [.clock, .licences, .reports, .lane, .seq] s t) ∧
    (s.supplies.main = false → s.supplies.backup = true →
      (s.clock.fraction < 255 →
        exec .dividerStep s = .next (s.withClock { s.clock with fraction := s.clock.fraction + 1 })) ∧
      (s.clock.fraction = 255 → exec .dividerStep s = .next (s.withClock second) ∧
        exec .boothSecond s = .next (s.withClock second)))

/-- R91, R93, R97: a release makes each BOUND entry SPENT at its figure, else LAPSED at its window's end, else LOADED;
a lapse check of a SET clock makes each LOADED entry past its window LAPSED; each raises that entry's generation by 1
and leaves every other entry as it was. -/
def Obligations.release_and_lapse_judge_each_entry : Prop :=
  (∀ (s : State) (i : Nat), i < 64 →
    let x := bankGet s.licences i
    bankGet (releaseAll s).licences i =
      if x.state = .bound then
        { x with
          state := if 0 < x.permitted ∧ x.counted = x.permitted then .spent
            else if x.windowEnd ≤ s.clock.seconds then .lapsed else .loaded
          generation := nextGeneration x.generation }
      else x) ∧
  (∀ (s : State) (i : Nat), s.clock.isSet = true → i < 64 →
    let x := bankGet s.licences i
    bankGet (lapseCheck s).licences i =
      if x.state = .loaded ∧ x.windowEnd ≤ s.clock.seconds then
        { x with state := .lapsed, generation := nextGeneration x.generation }
      else x) ∧
  (∀ s : State, s.clock.isSet = false → lapseCheck s = s)

/-! ### Lines -/

/-- R141, R142, R148, R42: a line millisecond with nothing left due shortens every span in progress, samples every pin,
moves the stable counts and the lane timer, and changes nothing else. That the span ends, accepted edges and lane timeout
it brings are only marked due, and carried out by the rows SPAN_END, INPUT_EDGE and LANE_DOWN, is the model's choice
(assumption log 6). -/
def Obligations.line_millisecond_counts : Prop :=
  ∀ (s : State) (pins : Mask8), s.supplies.main = true → (∀ i, i < 8 → (bankGet s.lines.outputs i).spanDue = false) →
    (∀ i, i < 8 → (bankGet s.lines.inputs i).edgeDue = false) → s.link.downDue = false →
    ∃ t, exec (.lineMillisecond pins) s = .next t ∧ Only [.lines, .link] s t ∧
      t.lines.msNumber = (s.lines.msNumber + 1) % 1000 ∧
      t.link = { s.link with laneTimer := min 100 (s.link.laneTimer + 1) } ∧
      ∀ i, i < 8 →
        (let x := bankGet s.lines.outputs i
        bankGet t.lines.outputs i = if x.activity = .idle then x else { x with spanRemaining := x.spanRemaining - 1 }) ∧
        (let x := bankGet s.lines.inputs i
        let level := pins.getLsbD i != x.config.activeLow
        bankGet t.lines.inputs i = { x with
          pinHigh := pins.getLsbD i
          stable := if level = x.accepted then 0 else min (x.config.debounce + 1) (x.stable + 1) })

/-- R144, R145: a span that has run out moves its line on: DELAYING to ON for the width, a pulse's ON to INACTIVE and
IDLE, a train's ON to OFF or to its end at the count, OFF to the next pulse unless the gate stops it. -/
def Obligations.span_end_moves_line_on : Prop :=
  ∀ (s : State) (n : Nat), s.supplies.main = true → n < 8 →
    let x := bankGet s.lines.outputs n
    let leave := fun (y : OutLine) => s.withLines { s.lines with outputs := bankSet s.lines.outputs n y }
    x.spanRemaining = 0 →
    (x.activity = .delaying → exec (.spanEnd n) s = .next
      (leave { x with active := true, activity := .on, spanRemaining := x.config.width })) ∧
    (x.activity = .on → x.config.mode ≠ .train → exec (.spanEnd n) s = .next
      (leave { x with active := false, activity := .idle, spanRemaining := 0 })) ∧
    (x.activity = .on → x.config.mode = .train → x.pulsesDone + 1 = x.config.count → x.config.count ≤ 254 →
      exec (.spanEnd n) s = .next
        (leave { x with active := false, activity := .idle, spanRemaining := 0, pulsesDone := x.pulsesDone + 1 })) ∧
    (x.activity = .on → x.config.mode = .train → x.pulsesDone + 1 < x.config.count → x.config.count ≤ 255 →
      exec (.spanEnd n) s = .next
        (leave { x with
          active := false
          activity := .off
          spanRemaining := x.config.offTime
          pulsesDone := x.pulsesDone + 1 })) ∧
    (x.activity = .off → exec (.spanEnd n) s = .next
      (if gateStops s.lines.inputs x.config then leave { x with active := false, activity := .idle, spanRemaining := 0 }
      else leave { x with active := true, activity := .on, spanRemaining := x.config.onTime }))

/-- R148, R149, R151, R17: a due edge changes the accepted level, joins or leaves the held set where the input is held,
clearing a pending go and resume on joining, and where it is selected writes the capture with state and position as
they stand before its action. -/
def Obligations.input_edge_accepted : Prop :=
  ∀ (s : State) (n : Nat), s.supplies.main = true → n < 8 →
    let x := bankGet s.lines.inputs n
    x.edgeDue = true →
    ∃ t, exec (.inputEdge n) s = .next t ∧ Only [.lines, .seq, .reports] s t ∧
      t.lines.outputs = s.lines.outputs ∧ (∀ m, m ≠ n → bankGet t.lines.inputs m = bankGet s.lines.inputs m) ∧
      inHeld n t = (if x.config.held then x.sampled else inHeld n s) ∧
      (x.config.held = true → x.sampled = true → t.seq.pend.go = false ∧ t.seq.pend.resume = false) ∧
      bankGet t.lines.inputs n =
        (if x.config.edge.selects x.sampled then
          { x with
            accepted := x.sampled
            stable := 0
            capture := some
              { rising := x.sampled
                level := x.sampled
                state := s.seq.state
                showing := if s.seq.state = .idle then 0 else s.recorder.record.number
                seg := s.seq.seg
                offset := s.seq.offset
                time := boothNow s }
            overwritten := x.overwritten || x.unread
            unread := true }
        else { x with accepted := x.sampled, stable := 0 })

/-! ### The unpacking engine -/

/-- R64, R65: the idle engine takes the first eligible unit, makes its key check and holds it; an engine whose unit was
discarded abandons it and becomes idle, and nothing else changes. -/
def Obligations.engine_takes_and_abandons : Prop :=
  (∀ (s : State) (w : Waiting), s.supplies.main = true → s.engine = none → firstWaiting s (eligible s) = some w →
    ∃ t j len content, exec .unpackingEngineTake s = .next t ∧
      unitContent s w.slot w.seg w.unit .waiting = some (len, content) ∧
      t.engine = some j ∧ j.slot = w.slot ∧ j.seg = w.seg ∧ j.unit = w.unit ∧ j.abandoned = false ∧
      j.verdict = (if len < 24 then some .format
        else (keyCheck s.licences (segmentOf s w.seg) (slotKind w.slot) (idField content 0)).1) ∧
      Only [.track, .text, .engine] s t) ∧
  (∀ (s : State) (j : UnpackJob), s.supplies.main = true → s.engine = some j → j.abandoned = true →
    exec .unpackAbandon s = .next (s.withEngine none))

/-- R66, R71, R122, R126: the engine completes its picture or sound unit: READY with its plaintext and check attributes
where every check passes, FAILED with the first failed check's cause where one does not; the engine is idle after. A
resource becomes READY with its kind, plaintext and attributes, FAILED with FORMAT where its header fails; a list of the
current segment whose slot is on and whose table is not loaded is then loaded late, the comparator at the first cue whose
in is above the last unit begun, and RESOURCE_LATE counts the cues that are past. -/
def Obligations.engine_completes_unit : Prop :=
  ∀ (s : State) (j : UnpackJob) (len : Nat) (content : List Byte), s.supplies.main = true → s.engine = some j →
    j.abandoned = false → unitContent s j.slot j.seg j.unit .unpacking = some (len, content) →
    let attrs := fun (p : List Byte) => some ({
      isProtected := j.isProtected
      composition := if j.isProtected then some j.composition else none
      licence := j.key.map (·.1)
      sound := if j.slot = 2 ∨ j.slot = 3 then some ⟨j.srate, samplesPerUnit j.rate j.srate, byteAt p 0⟩ else none }
        : CheckAttrs)
    (j.slot < 4 →
      ∃ t, exec .unpackComplete s = .next t ∧ t.engine = none ∧ Only [.track, .engine] s t ∧
        (∀ k, k ≠ j.slot → queueOf t k = queueOf s k) ∧
        queueOf t j.slot = (queueOf s j.slot).map (fun u =>
          if u.seg = j.seg ∧ u.unit = j.unit then
            (match unpack j len content with
              | .ok p => { u with state := .ready, content := p, attrs := attrs p }
              | .error c => { u with state := .failed c })
          else u)) ∧
    (j.slot = 4 ∨ j.slot = 5 →
      ∃ t, exec .unpackComplete s = .next t ∧ t.engine = none ∧
        Only [.text, .caption, .recorder, .reports, .engine] s t ∧
        t.text.store = s.text.store.map (fun x =>
          if x.named j.seg j.slot j.unit then
            (match unpack j len content with
              | .ok p =>
                match resourceKind j.slot j.unit p with
                | some k => { x with state := .ready, kind := some k, content := p, attrs := attrs p }
                | none => { x with state := .failed .format }
              | .error c => { x with state := .failed c })
          else x) ∧
        (∀ p k c u, unpack j len content = .ok p → resourceKind j.slot j.unit p = some k → k ≠ .image →
          s.seq.ctx = some c → c.played = j.seg → slotOn c.segment j.slot = true →
          (tableOf s.text j.slot).loaded = false → lastBegun s.seq = some u →
          let cues := (listCues j.slot p).1
          tableOf t.text j.slot = ⟨cues, cues.findIdx? (fun x => decide (u < x.inPoint)), true⟩ ∧
          ((∀ x ∈ cues, u < x.inPoint ∨ x.outPoint ≤ u) → t.reports =
            (raise .resourceLate j.slot (cues.filter (fun x => decide (x.outPoint ≤ u))).length s).reports)) ∧
        ((tableOf s.text j.slot).loaded = true → t.text.t0 = s.text.t0 ∧ t.text.t1 = s.text.t1 ∧ t.caption = s.caption ∧
          t.reports = s.reports))

/-! ### The return lane -/

/-- R190, R189, R56: on a free lane the waiting PACE cell goes first, then the oldest reply, then the head report, each
leaving its store and taking the return sequence number; a report that leaves with losses counted lets REPORTS_LOST
take its place. CELL_SEND_END frees the lane. -/
def Obligations.return_lane_sends_in_order : Prop :=
  ∀ s : State, s.supplies.main = true →
    (∀ x, s.lane.sending = none → s.lane.pace = some x →
      exec .cellSendStart s = .next (s.withLane
        { pace := none
          sending := some (returnCell 6 x.seg s.lane.sequence (paceBytes x))
          sequence := (s.lane.sequence + 1) % 65536 })) ∧
    (∀ r rest, s.lane.sending = none → s.lane.pace = none → s.mgmt.replies = r :: rest →
      exec .cellSendStart s = .next ((s.withMgmt { s.mgmt with replies := rest }).withLane
        { pace := none
          sending := some (returnCell 4 0 s.lane.sequence (be 2 r.tag ++ be 1 r.kind ++ be 1 r.outcome.code ++ r.data))
          sequence := (s.lane.sequence + 1) % 65536 })) ∧
    (∀ r rest, s.lane.sending = none → s.lane.pace = none → s.mgmt.replies = [] → s.reports.queue = r :: rest →
      ∃ t, exec .cellSendStart s = .next t ∧
        t.lane.sending = some (returnCell 5 0 s.lane.sequence (reportBytes r)) ∧
        t.lane.sequence = (s.lane.sequence + 1) % 65536 ∧ t.reports.mask = s.reports.mask ∧ t.reports.lost = 0 ∧
        (s.reports.lost = 0 → t.reports.queue = rest) ∧
        (0 < s.reports.lost → ∃ x, t.reports.queue = rest ++ [x] ∧ x.kind = .reportsLost ∧
          x.detail1 = s.reports.lost ∧ x.seg = s.seq.seg ∧ x.offset = s.seq.offset ∧ x.time = boothNow s) ∧
        Only [.lane, .reports] s t) ∧
    (s.lane.sending = none → s.lane.pace = none → s.mgmt.replies = [] → s.reports.queue = [] →
      exec .cellSendStart s = .next s) ∧
    (∀ c, s.lane.sending = some c → exec .cellSendStart s = .next s ∧
      exec .cellSendEnd s = .next (s.withLane { s.lane with sending := none }))

/-! ### Starts and supplies -/

/-- R191, R192, R166, R92: a power-on with the flag clear leaves the reset state, START_COLD its one report. One with the
flag set keeps the retained tables and the line configurations, queues START_WARM first, leaves no entry BOUND and closes
an OPEN showing INTERRUPTED; the Sequencer is IDLE and the lane DOWN. Loss of the backup supply clears the flag; loss of
main power keeps every retained table and the line configurations and drops the cell being sent. The model's choices: that
a start is taken whatever the main supply stands at (assumption log 17), that the backup supply is present after one and
that its loss clears the flag with main power present too (log 16), and that the volatile state reads as at a start, the
Sequencer IDLE, while main power is absent (log 15). -/
def Obligations.starts_and_supply_losses : Prop :=
  (∀ s : State, s.supplies.retainedValid = false →
    exec .coldStart s = .next (State.reset.withPending s.pending) ∧
    State.reset.reports.queue.map (fun x => (x.kind, x.detail1, x.detail2)) = [(.startCold, 620, 1)] ∧
    State.reset.supplies.retainedValid = true) ∧
  (∀ s : State, s.supplies.retainedValid = true →
    ∃ t, exec .warmStart s = .next t ∧ t.supplies = ⟨true, true, true⟩ ∧ t.seq.state = .idle ∧ t.seq.ctx = none ∧
      t.seq.flags = 0 ∧ t.seq.pauseLimit = s.seq.pauseLimit ∧ t.seq.starveLimit = s.seq.starveLimit ∧
      t.showList = s.showList ∧ t.cues = s.cues ∧ t.clock = s.clock ∧ t.sound.profiles = s.sound.profiles ∧
      t.sound.law = s.sound.law ∧ t.sound.fader = s.sound.fader ∧ t.link.laneUp = false ∧ t.lane = State.reset.lane ∧
      (∀ i, i < 8 → (bankGet t.lines.outputs i).config = (bankGet s.lines.outputs i).config ∧
        (bankGet t.lines.outputs i).active = false ∧
        (bankGet t.lines.inputs i).config = (bankGet s.lines.inputs i).config) ∧
      (∀ x ∈ t.licences.toList, x.state ≠ .bound) ∧
      (∃ x rest, t.reports.queue = x :: rest ∧ x.kind = .startWarm ∧
        x.detail1 = (if s.recorder.status = .opened then 1 else 0) ∧
        x.detail2 = (if s.recorder.status = .opened then s.recorder.record.number else 0)) ∧
      (s.recorder.status = .opened → t.recorder.status = .closed ∧ t.recorder.record.endCause = some .interrupted) ∧
      (s.recorder.status ≠ .opened → t.recorder = s.recorder)) ∧
  (∀ s : State, exec .backupSupplyLoss s =
    .next (s.withSupplies { s.supplies with backup := false, retainedValid := false })) ∧
  (∀ s : State, s.supplies.main = true → ∃ t, exec .mainPowerLoss s = .next t ∧ t.supplies.main = false ∧
    t.supplies.backup = s.supplies.backup ∧ t.supplies.retainedValid = s.supplies.retainedValid ∧
    t.licences = s.licences ∧ t.clock = s.clock ∧ t.showList = s.showList ∧ t.cues = s.cues ∧
    t.recorder = s.recorder ∧ t.sound.profiles = s.sound.profiles ∧ t.sound.law = s.sound.law ∧
    t.sound.fader = s.sound.fader ∧ t.seq.pauseLimit = s.seq.pauseLimit ∧ t.seq.starveLimit = s.seq.starveLimit ∧
    (∀ i, i < 8 → (bankGet t.lines.outputs i).config = (bankGet s.lines.outputs i).config ∧
      (bankGet t.lines.inputs i).config = (bankGet s.lines.inputs i).config) ∧
    t.lane.sending = none ∧ t.seq.state = .idle)

/-! ### Cells -/

/-- R41 to R43: a valid FILL cell restarts the lane timer and brings the lane UP, raising LINK_STATE where it was DOWN;
LANE_DOWN at 100 line milliseconds takes it DOWN; a cell that fails R41 is counted, raises LINK_ERROR where it is armed and
leaves it disarmed, and touches neither timer nor lane. -/
def Obligations.lane_follows_valid_cells : Prop :=
  (∀ (s : State) (c : Cell), s.supplies.main = true → c.valid = true → c.kind = 0 → s.link.downDue = false →
    exec (.fill c) s = .next
      (if s.link.laneUp then s.withLink { s.link with laneTimer := 0 }
      else raise .linkState 1 0 (s.withLink { s.link with laneTimer := 0, laneUp := true }))) ∧
  (∀ s : State, s.supplies.main = true → s.link.laneUp = true → 100 ≤ s.link.laneTimer →
    exec .laneDown s = .next (raise .linkState 0 0 (s.withLink { s.link with laneUp := false }))) ∧
  (∀ (s : State) (c : Cell), s.supplies.main = true → c.valid = false →
    ∃ t, exec (.invalidCell c) s = .next t ∧ Only [.link, .reports] s t ∧ t.link.laneUp = s.link.laneUp ∧
      t.link.laneTimer = s.link.laneTimer ∧ t.link.errorArmed = false ∧
      t.link.counters = { s.link.counters with headerErrors := min 65535 (s.link.counters.headerErrors + 1) } ∧
      t.reports = (if s.link.errorArmed then (raise .linkError 1 0 s).reports else s.reports))

/-- R44, R46, R47, R49: an ESSENCE unit-start of the expected number, at a slot that is not OPEN, that passes the checks
of R47 and fits its slot's limit, joins the tail of its track queue with its payload and leaves the slot OPEN, or closed
to WAITING where the cell carries its end mark too. -/
def Obligations.essence_unit_joins_queue : Prop :=
  ∀ (s : State) (c : Cell), s.supplies.main = true → c.valid = true → c.kind = 1 → c.unitStart = true →
    (bankGet s.track.slots c.slot).expected = some c.seqNumber → assemblyOf s c.slot ≠ .opened →
    essenceCheck c.slot c.segment c.unitNumber s = none → (∀ u ∈ queueOf s c.slot, u.state ≠ .assembling) →
    ∃ t, exec (.essence c) s = .next t ∧ Only [.track, .text, .link, .reports] s t ∧ t.text = s.text ∧
      queueOf t c.slot = queueOf s c.slot ++
        [⟨c.segment, c.unitNumber, if c.unitEnd then .waiting else .assembling, none, false, c.payload.length,
          c.payload, none⟩] ∧
      (∀ k, k ≠ c.slot → queueOf t k = queueOf s k) ∧
      assemblyOf t c.slot = (if c.unitEnd then .vacant else .opened) ∧
      (bankGet t.track.slots c.slot).expected = some ((c.seqNumber + 1) % 65536) ∧
      t.link.counters = s.link.counters

/-- R51, R120: a RESOURCE unit-start of the expected number that passes the checks of R51, whose name the store does not
hold and for which there is an entry and room, joins the text store ARRIVING with its payload. -/
def Obligations.resource_joins_text_store : Prop :=
  ∀ (s : State) (c : Cell), s.supplies.main = true → c.valid = true → c.kind = 2 → c.unitStart = true →
    c.unitEnd = false → (bankGet s.track.slots c.slot).expected = some c.seqNumber → assemblyOf s c.slot ≠ .opened →
    resourceCheck c.slot c.segment s = none → findResource s c.segment c.slot c.unitNumber = none →
    (∀ x ∈ s.text.store, x.slot = c.slot → x.state ≠ .assembling) → 0 < freeEntries s → c.payload.length ≤ freeBytes s →
    ∃ t, exec (.resource c) s = .next t ∧ Only [.track, .text, .link, .reports] s t ∧
      t.text.store = s.text.store ++
        [⟨c.segment, c.slot, c.unitNumber, none, c.payload.length, .assembling, none, false, c.payload, none⟩] ∧
      t.track.queues = s.track.queues ∧ assemblyOf t c.slot = .opened

/-- R172, R173: the request of a valid MANAGE cell joins the queue's end while it holds fewer than 8; else it is answered
QUEUE_FULL while the reply list has a place; else it is lost and counted. -/
def Obligations.manage_request_queued_answered_or_lost : Prop :=
  ∀ (s : State) (c : Cell), s.supplies.main = true → c.valid = true → c.kind = 3 →
    let r : Request := ⟨field c.payload 0 2, byteAt c.payload 2, c.payload.drop 4⟩
    ∃ t, exec (.manage c) s = .next t ∧ Only [.mgmt, .link, .reports] s t ∧ t.link.laneUp = true ∧
      t.link.laneTimer = 0 ∧
      t.mgmt =
        (if s.mgmt.queue.length < 8 then { s.mgmt with queue := s.mgmt.queue ++ [r] }
        else if s.mgmt.replies.length < 16 then
          { s.mgmt with replies := s.mgmt.replies ++ [⟨r.tag, r.kind, .queueFull, []⟩] }
        else { s.mgmt with lost := min 65535 (s.mgmt.lost + 1) })

/-! ### Invariants of every step -/

/-- The reset state meets every invariant. -/
def Obligations.reset_meets_invariants : Prop :=
  Bounded State.reset ∧ CountsInRange State.reset ∧ MaskLegal State.reset.reports ∧ RingsHold State.reset.sound ∧
    LogOrdered State.reset.recorder ∧ LicencesHold State.reset ∧ SequencerHolds State.reset

/-- R43, R52, R56, R119, R133, R167, R172, R173, R186, R188, R189: every step keeps every queue and list within its places,
every count in its range and the report mask legal. -/
def Obligations.step_keeps_bounds : Prop :=
  ∀ s t : State, Bounded s → CountsInRange s → MaskLegal s.reports → step s = .next t →
    Bounded t ∧ CountsInRange t ∧ MaskLegal t.reports

/-- R116: every step keeps every delay ring in its canonical form, of signed 24-bit samples, and the write index a place
of it. -/
def Obligations.step_keeps_delay_rings : Prop :=
  ∀ s t : State, RingsHold s.sound → step s = .next t → RingsHold t.sound

/-- R167: every step keeps the showing log in strictly rising showing numbers below the next one, of at most 256
records. -/
def Obligations.step_keeps_log_ordered : Prop :=
  ∀ s t : State, LogOrdered s.recorder → step s = .next t → LogOrdered t.recorder

/-- R90, R89: every step keeps each limited licence's count at or below its figure, and with main power present leaves
no entry BOUND in IDLE. -/
def Obligations.step_keeps_licence_counts : Prop :=
  ∀ s t : State, LicencesHold s → step s = .next t → LicencesHold t

/-- R5, R6, R26, R28: every step keeps the Sequencer in accord with its context: in IDLE none, unit clock stopped,
position 0, 0; in every other state a context whose duration the unit offset is below, and the running unit clock's tick
count below its ticks per unit. -/
def Obligations.step_keeps_offset_below_duration : Prop :=
  ∀ s t : State, SequencerHolds s → step s = .next t → SequencerHolds t

/-! ### Codings -/

/-- R180 to R183, R175: the bodies of an entry, a cue, a profile and the two line configurations in their ranges pass their
coding checks and read back as what they were. What READ LINE returns of a line, READ SHOWING of the record and each of
its results, and READ LOG of a log record and the log stands field by field in the places of R182 and R183. That the stop
level byte of an output line without a gate reads 0 is no words of R182 but the model's choice (assumption log 24). -/
def Obligations.bodies_read_back : Prop :=
  (∀ e : Entry, e.inRange = true → (entryBody e).length = 47 ∧ entryCoded (entryBody e) 0 = true ∧
    readEntryBody (entryBody e) 0 e.generation = e) ∧
  (∀ c : AutoCue, c.inRange = true → (cueBody c).length = 10 ∧ cueCoded (cueBody c) 0 = true ∧
    readCueBody (cueBody c) 0 c.generation = c) ∧
  (∀ x : Profile, x.inRange = true → (profileBytes x).length = 56 ∧ profileCoded (profileBytes x) 0 = true ∧
    readProfileBody (profileBytes x) 0 x.generation = x) ∧
  (∀ c : OutConfig, c.inRange = true → (outConfigBytes c).length = 13 ∧ outConfigOk (outConfigBytes c) 0 = true ∧
    readOutConfig (outConfigBytes c) 0 = c) ∧
  (∀ c : InConfig, c.inRange = true → (inConfigBytes c).length = 8 ∧ inConfigOk (inConfigBytes c) 0 = true ∧
    readInConfig (inConfigBytes c) 0 = c) ∧
  (∀ x : OutLine, let l := outLineBytes x
    l.length = 20 ∧ field l 0 1 = x.config.mode.code ∧ flagAt l 1 = x.config.activeLow ∧
      field l 2 2 = x.config.delay % 65536 ∧ field l 4 2 = x.config.width % 65536 ∧
      field l 6 1 = x.config.count % 256 ∧ field l 7 2 = x.config.onTime % 65536 ∧
      field l 9 2 = x.config.offTime % 65536 ∧
      field l 11 1 = (match x.config.gate with | some g => g.1 % 256 | none => 255) ∧
      flagAt l 12 = (match x.config.gate with | some g => g.2 | none => false) ∧
      flagAt l 13 = x.active ∧ field l 14 1 = x.activity.code ∧ field l 15 2 = x.spanRemaining % 65536 ∧
      field l 17 1 = x.pulsesDone % 256 ∧ field l 18 2 = x.busyTriggers % 65536) ∧
  (∀ (x : InLine) (held : Bool), let l := inLineBytes x held
    l.length = 12 ∧ flagAt l 0 = x.config.activeLow ∧ field l 1 1 = x.config.edge.code ∧
      field l 2 1 = x.config.debounce % 256 ∧ readInAction l 3 = x.config.action ∧ flagAt l 7 = x.config.held ∧
      flagAt l 8 = (x.pinHigh != x.config.activeLow) ∧ flagAt l 9 = x.accepted ∧ flagAt l 10 = held ∧
      flagAt l 11 = x.unread) ∧
  (∀ o : Option BoothTime, let l := optTimeBytes o
    l.length = 6 ∧ (o = none → l = List.replicate 6 0) ∧
      (∀ x, o = some x → l = timeBytes x ∧ field l 0 4 = x.seconds % 4294967296 ∧ field l 4 1 = x.fraction % 256 ∧
        field l 5 1 = (if x.isSet then 3 else 2))) ∧
  (∀ (status first : Nat) (x : ShowRecord), let l := be 1 status ++ recordBytes first x
    let shown := (x.results.drop first).take 40
    let line := fun (a : SegResult) => be 1 a.index ++ be 1 a.outcome.code ++ be 3 a.unitsOutput ++
      be 4 a.pictureConcealed ++ be 4 a.soundConcealed ++ be 4 a.cuesShown
    field l 0 1 = status % 256 ∧ field l 1 4 = x.number % 4294967296 ∧ (l.drop 5).take 6 = timeBytes x.cueTime ∧
      (l.drop 11).take 6 = optTimeBytes x.startTime ∧ flagAt l 17 = x.counted ∧
      (l.drop 18).take 6 = optTimeBytes x.countTime ∧ field l 24 4 = x.pauses % 4294967296 ∧
      field l 28 4 = x.pausedTime % 4294967296 ∧ field l 32 4 = x.clips % 4294967296 ∧
      field l 36 4 = x.cuesDropped % 4294967296 ∧ field l 40 4 = x.badCues % 4294967296 ∧
      field l 44 4 = x.missing % 4294967296 ∧ (l.drop 48).take 6 = optTimeBytes x.endTime ∧
      field l 54 1 = (match x.endCause with | some c => c.code | none => 255) ∧
      field l 55 1 = x.results.length % 256 ∧ field l 56 1 = min 40 (x.results.length - first) ∧
      field l 57 1 = x.bound.length % 256 ∧
      l.drop 58 = x.bound.map (BitVec.ofNat 8) ++ be 1 x.countedLicences.length ++
        x.countedLicences.map (fun a => BitVec.ofNat 8 a.1) ++ shown.flatMap line ∧
      (shown.flatMap line).length = 17 * shown.length) ∧
  (∀ (x : LogRecord) (r : Recorder), x.keyIds.length ≤ 8 →
    let l := logBytes x r
    l.length = 208 ∧ field l 0 4 = x.number % 4294967296 ∧ (l.drop 4).take 6 = optTimeBytes x.startTime ∧
      (l.drop 10).take 6 = optTimeBytes x.endTime ∧ field l 16 1 = x.endCause.code ∧ flagAt l 17 = x.counted ∧
      (l.drop 18).take 6 = optTimeBytes x.countTime ∧ flagAt l 24 = x.feature.isSome ∧
      idField l 25 = x.feature.getD 0 ∧ field l 41 1 = x.keyIds.length ∧ flagAt l 42 = x.more ∧
      (∀ i, i < 8 → idField l (43 + 16 * i) = x.keyIds.getD i 0) ∧ field l 171 4 = x.unitsOutput % 4294967296 ∧
      field l 175 4 = x.pictureConcealed % 4294967296 ∧ field l 179 4 = x.soundConcealed % 4294967296 ∧
      field l 183 4 = x.cuesDropped % 4294967296 ∧ field l 187 4 = x.clips % 4294967296 ∧ flagAt l 191 = x.collected ∧
      field l 192 2 = r.log.length % 65536 ∧ field l 194 2 = (r.log.filter (fun y => !y.collected)).length % 65536 ∧
      field l 196 4 = r.overwrites % 4294967296 ∧
      field l 200 4 = (match r.log.head? with | some y => y.number | none => 0) % 4294967296 ∧
      field l 204 4 = (match r.log.getLast? with | some y => y.number | none => 0) % 4294967296)

/-- R56, R57, R41: a return cell carries version 1, its kind, both marks, slot 0, its segment index, the return sequence
number, its payload's length and unit number 0, under a header check that matches. -/
def Obligations.return_cell_header_reads_back : Prop :=
  ∀ (kind seg sequence : Nat) (p : List Byte), kind < 256 → seg < 256 → sequence < 65536 → p.length ≤ 1024 →
    let c := returnCell kind seg sequence p
    c.checkOk = true ∧ c.version = 1 ∧ c.kind = kind ∧ c.unitStart = true ∧ c.unitEnd = true ∧ c.slot = 0 ∧
      c.segment = seg ∧ c.seqNumber = sequence ∧ c.lengthField = p.length ∧ c.unitNumber = 0 ∧ c.payload = p
end

