-- ==== Sys2Proof/Laws/State.lean ====
section
/-! SUPPORT. One lemma per block per update of the state: a block replaced reads as the new value, and every other
block as it stood. -/

namespace Sys2Proof.Machine.State

section withSupplies
variable (s : State) (x : Supplies)
@[simp] theorem withSupplies_supplies : (s.withSupplies x).supplies = x := rfl
@[simp] theorem withSupplies_link : (s.withSupplies x).link = s.link := rfl
@[simp] theorem withSupplies_track : (s.withSupplies x).track = s.track := rfl
@[simp] theorem withSupplies_engine : (s.withSupplies x).engine = s.engine := rfl
@[simp] theorem withSupplies_licences : (s.withSupplies x).licences = s.licences := rfl
@[simp] theorem withSupplies_clock : (s.withSupplies x).clock = s.clock := rfl
@[simp] theorem withSupplies_showList : (s.withSupplies x).showList = s.showList := rfl
@[simp] theorem withSupplies_seq : (s.withSupplies x).seq = s.seq := rfl
@[simp] theorem withSupplies_picture : (s.withSupplies x).picture = s.picture := rfl
@[simp] theorem withSupplies_sound : (s.withSupplies x).sound = s.sound := rfl
@[simp] theorem withSupplies_text : (s.withSupplies x).text = s.text := rfl
@[simp] theorem withSupplies_caption : (s.withSupplies x).caption = s.caption := rfl
@[simp] theorem withSupplies_lines : (s.withSupplies x).lines = s.lines := rfl
@[simp] theorem withSupplies_cues : (s.withSupplies x).cues = s.cues := rfl
@[simp] theorem withSupplies_recorder : (s.withSupplies x).recorder = s.recorder := rfl
@[simp] theorem withSupplies_mgmt : (s.withSupplies x).mgmt = s.mgmt := rfl
@[simp] theorem withSupplies_reports : (s.withSupplies x).reports = s.reports := rfl
@[simp] theorem withSupplies_lane : (s.withSupplies x).lane = s.lane := rfl
@[simp] theorem withSupplies_pending : (s.withSupplies x).pending = s.pending := rfl
end withSupplies

section withLink
variable (s : State) (x : LinkReceiver)
@[simp] theorem withLink_supplies : (s.withLink x).supplies = s.supplies := rfl
@[simp] theorem withLink_link : (s.withLink x).link = x := rfl
@[simp] theorem withLink_track : (s.withLink x).track = s.track := rfl
@[simp] theorem withLink_engine : (s.withLink x).engine = s.engine := rfl
@[simp] theorem withLink_licences : (s.withLink x).licences = s.licences := rfl
@[simp] theorem withLink_clock : (s.withLink x).clock = s.clock := rfl
@[simp] theorem withLink_showList : (s.withLink x).showList = s.showList := rfl
@[simp] theorem withLink_seq : (s.withLink x).seq = s.seq := rfl
@[simp] theorem withLink_picture : (s.withLink x).picture = s.picture := rfl
@[simp] theorem withLink_sound : (s.withLink x).sound = s.sound := rfl
@[simp] theorem withLink_text : (s.withLink x).text = s.text := rfl
@[simp] theorem withLink_caption : (s.withLink x).caption = s.caption := rfl
@[simp] theorem withLink_lines : (s.withLink x).lines = s.lines := rfl
@[simp] theorem withLink_cues : (s.withLink x).cues = s.cues := rfl
@[simp] theorem withLink_recorder : (s.withLink x).recorder = s.recorder := rfl
@[simp] theorem withLink_mgmt : (s.withLink x).mgmt = s.mgmt := rfl
@[simp] theorem withLink_reports : (s.withLink x).reports = s.reports := rfl
@[simp] theorem withLink_lane : (s.withLink x).lane = s.lane := rfl
@[simp] theorem withLink_pending : (s.withLink x).pending = s.pending := rfl
end withLink

section withTrack
variable (s : State) (x : TrackAssembler)
@[simp] theorem withTrack_supplies : (s.withTrack x).supplies = s.supplies := rfl
@[simp] theorem withTrack_link : (s.withTrack x).link = s.link := rfl
@[simp] theorem withTrack_track : (s.withTrack x).track = x := rfl
@[simp] theorem withTrack_engine : (s.withTrack x).engine = s.engine := rfl
@[simp] theorem withTrack_licences : (s.withTrack x).licences = s.licences := rfl
@[simp] theorem withTrack_clock : (s.withTrack x).clock = s.clock := rfl
@[simp] theorem withTrack_showList : (s.withTrack x).showList = s.showList := rfl
@[simp] theorem withTrack_seq : (s.withTrack x).seq = s.seq := rfl
@[simp] theorem withTrack_picture : (s.withTrack x).picture = s.picture := rfl
@[simp] theorem withTrack_sound : (s.withTrack x).sound = s.sound := rfl
@[simp] theorem withTrack_text : (s.withTrack x).text = s.text := rfl
@[simp] theorem withTrack_caption : (s.withTrack x).caption = s.caption := rfl
@[simp] theorem withTrack_lines : (s.withTrack x).lines = s.lines := rfl
@[simp] theorem withTrack_cues : (s.withTrack x).cues = s.cues := rfl
@[simp] theorem withTrack_recorder : (s.withTrack x).recorder = s.recorder := rfl
@[simp] theorem withTrack_mgmt : (s.withTrack x).mgmt = s.mgmt := rfl
@[simp] theorem withTrack_reports : (s.withTrack x).reports = s.reports := rfl
@[simp] theorem withTrack_lane : (s.withTrack x).lane = s.lane := rfl
@[simp] theorem withTrack_pending : (s.withTrack x).pending = s.pending := rfl
end withTrack

section withEngine
variable (s : State) (x : Option UnpackJob)
@[simp] theorem withEngine_supplies : (s.withEngine x).supplies = s.supplies := rfl
@[simp] theorem withEngine_link : (s.withEngine x).link = s.link := rfl
@[simp] theorem withEngine_track : (s.withEngine x).track = s.track := rfl
@[simp] theorem withEngine_engine : (s.withEngine x).engine = x := rfl
@[simp] theorem withEngine_licences : (s.withEngine x).licences = s.licences := rfl
@[simp] theorem withEngine_clock : (s.withEngine x).clock = s.clock := rfl
@[simp] theorem withEngine_showList : (s.withEngine x).showList = s.showList := rfl
@[simp] theorem withEngine_seq : (s.withEngine x).seq = s.seq := rfl
@[simp] theorem withEngine_picture : (s.withEngine x).picture = s.picture := rfl
@[simp] theorem withEngine_sound : (s.withEngine x).sound = s.sound := rfl
@[simp] theorem withEngine_text : (s.withEngine x).text = s.text := rfl
@[simp] theorem withEngine_caption : (s.withEngine x).caption = s.caption := rfl
@[simp] theorem withEngine_lines : (s.withEngine x).lines = s.lines := rfl
@[simp] theorem withEngine_cues : (s.withEngine x).cues = s.cues := rfl
@[simp] theorem withEngine_recorder : (s.withEngine x).recorder = s.recorder := rfl
@[simp] theorem withEngine_mgmt : (s.withEngine x).mgmt = s.mgmt := rfl
@[simp] theorem withEngine_reports : (s.withEngine x).reports = s.reports := rfl
@[simp] theorem withEngine_lane : (s.withEngine x).lane = s.lane := rfl
@[simp] theorem withEngine_pending : (s.withEngine x).pending = s.pending := rfl
end withEngine

section withLicences
variable (s : State) (x : Vector Licence 64)
@[simp] theorem withLicences_supplies : (s.withLicences x).supplies = s.supplies := rfl
@[simp] theorem withLicences_link : (s.withLicences x).link = s.link := rfl
@[simp] theorem withLicences_track : (s.withLicences x).track = s.track := rfl
@[simp] theorem withLicences_engine : (s.withLicences x).engine = s.engine := rfl
@[simp] theorem withLicences_licences : (s.withLicences x).licences = x := rfl
@[simp] theorem withLicences_clock : (s.withLicences x).clock = s.clock := rfl
@[simp] theorem withLicences_showList : (s.withLicences x).showList = s.showList := rfl
@[simp] theorem withLicences_seq : (s.withLicences x).seq = s.seq := rfl
@[simp] theorem withLicences_picture : (s.withLicences x).picture = s.picture := rfl
@[simp] theorem withLicences_sound : (s.withLicences x).sound = s.sound := rfl
@[simp] theorem withLicences_text : (s.withLicences x).text = s.text := rfl
@[simp] theorem withLicences_caption : (s.withLicences x).caption = s.caption := rfl
@[simp] theorem withLicences_lines : (s.withLicences x).lines = s.lines := rfl
@[simp] theorem withLicences_cues : (s.withLicences x).cues = s.cues := rfl
@[simp] theorem withLicences_recorder : (s.withLicences x).recorder = s.recorder := rfl
@[simp] theorem withLicences_mgmt : (s.withLicences x).mgmt = s.mgmt := rfl
@[simp] theorem withLicences_reports : (s.withLicences x).reports = s.reports := rfl
@[simp] theorem withLicences_lane : (s.withLicences x).lane = s.lane := rfl
@[simp] theorem withLicences_pending : (s.withLicences x).pending = s.pending := rfl
end withLicences

section withClock
variable (s : State) (x : BoothTime)
@[simp] theorem withClock_supplies : (s.withClock x).supplies = s.supplies := rfl
@[simp] theorem withClock_link : (s.withClock x).link = s.link := rfl
@[simp] theorem withClock_track : (s.withClock x).track = s.track := rfl
@[simp] theorem withClock_engine : (s.withClock x).engine = s.engine := rfl
@[simp] theorem withClock_licences : (s.withClock x).licences = s.licences := rfl
@[simp] theorem withClock_clock : (s.withClock x).clock = x := rfl
@[simp] theorem withClock_showList : (s.withClock x).showList = s.showList := rfl
@[simp] theorem withClock_seq : (s.withClock x).seq = s.seq := rfl
@[simp] theorem withClock_picture : (s.withClock x).picture = s.picture := rfl
@[simp] theorem withClock_sound : (s.withClock x).sound = s.sound := rfl
@[simp] theorem withClock_text : (s.withClock x).text = s.text := rfl
@[simp] theorem withClock_caption : (s.withClock x).caption = s.caption := rfl
@[simp] theorem withClock_lines : (s.withClock x).lines = s.lines := rfl
@[simp] theorem withClock_cues : (s.withClock x).cues = s.cues := rfl
@[simp] theorem withClock_recorder : (s.withClock x).recorder = s.recorder := rfl
@[simp] theorem withClock_mgmt : (s.withClock x).mgmt = s.mgmt := rfl
@[simp] theorem withClock_reports : (s.withClock x).reports = s.reports := rfl
@[simp] theorem withClock_lane : (s.withClock x).lane = s.lane := rfl
@[simp] theorem withClock_pending : (s.withClock x).pending = s.pending := rfl
end withClock

section withShowList
variable (s : State) (x : Vector Entry 128)
@[simp] theorem withShowList_supplies : (s.withShowList x).supplies = s.supplies := rfl
@[simp] theorem withShowList_link : (s.withShowList x).link = s.link := rfl
@[simp] theorem withShowList_track : (s.withShowList x).track = s.track := rfl
@[simp] theorem withShowList_engine : (s.withShowList x).engine = s.engine := rfl
@[simp] theorem withShowList_licences : (s.withShowList x).licences = s.licences := rfl
@[simp] theorem withShowList_clock : (s.withShowList x).clock = s.clock := rfl
@[simp] theorem withShowList_showList : (s.withShowList x).showList = x := rfl
@[simp] theorem withShowList_seq : (s.withShowList x).seq = s.seq := rfl
@[simp] theorem withShowList_picture : (s.withShowList x).picture = s.picture := rfl
@[simp] theorem withShowList_sound : (s.withShowList x).sound = s.sound := rfl
@[simp] theorem withShowList_text : (s.withShowList x).text = s.text := rfl
@[simp] theorem withShowList_caption : (s.withShowList x).caption = s.caption := rfl
@[simp] theorem withShowList_lines : (s.withShowList x).lines = s.lines := rfl
@[simp] theorem withShowList_cues : (s.withShowList x).cues = s.cues := rfl
@[simp] theorem withShowList_recorder : (s.withShowList x).recorder = s.recorder := rfl
@[simp] theorem withShowList_mgmt : (s.withShowList x).mgmt = s.mgmt := rfl
@[simp] theorem withShowList_reports : (s.withShowList x).reports = s.reports := rfl
@[simp] theorem withShowList_lane : (s.withShowList x).lane = s.lane := rfl
@[simp] theorem withShowList_pending : (s.withShowList x).pending = s.pending := rfl
end withShowList

section withSeq
variable (s : State) (x : Sequencer)
@[simp] theorem withSeq_supplies : (s.withSeq x).supplies = s.supplies := rfl
@[simp] theorem withSeq_link : (s.withSeq x).link = s.link := rfl
@[simp] theorem withSeq_track : (s.withSeq x).track = s.track := rfl
@[simp] theorem withSeq_engine : (s.withSeq x).engine = s.engine := rfl
@[simp] theorem withSeq_licences : (s.withSeq x).licences = s.licences := rfl
@[simp] theorem withSeq_clock : (s.withSeq x).clock = s.clock := rfl
@[simp] theorem withSeq_showList : (s.withSeq x).showList = s.showList := rfl
@[simp] theorem withSeq_seq : (s.withSeq x).seq = x := rfl
@[simp] theorem withSeq_picture : (s.withSeq x).picture = s.picture := rfl
@[simp] theorem withSeq_sound : (s.withSeq x).sound = s.sound := rfl
@[simp] theorem withSeq_text : (s.withSeq x).text = s.text := rfl
@[simp] theorem withSeq_caption : (s.withSeq x).caption = s.caption := rfl
@[simp] theorem withSeq_lines : (s.withSeq x).lines = s.lines := rfl
@[simp] theorem withSeq_cues : (s.withSeq x).cues = s.cues := rfl
@[simp] theorem withSeq_recorder : (s.withSeq x).recorder = s.recorder := rfl
@[simp] theorem withSeq_mgmt : (s.withSeq x).mgmt = s.mgmt := rfl
@[simp] theorem withSeq_reports : (s.withSeq x).reports = s.reports := rfl
@[simp] theorem withSeq_lane : (s.withSeq x).lane = s.lane := rfl
@[simp] theorem withSeq_pending : (s.withSeq x).pending = s.pending := rfl
end withSeq

section withPicture
variable (s : State) (x : PicturePort)
@[simp] theorem withPicture_supplies : (s.withPicture x).supplies = s.supplies := rfl
@[simp] theorem withPicture_link : (s.withPicture x).link = s.link := rfl
@[simp] theorem withPicture_track : (s.withPicture x).track = s.track := rfl
@[simp] theorem withPicture_engine : (s.withPicture x).engine = s.engine := rfl
@[simp] theorem withPicture_licences : (s.withPicture x).licences = s.licences := rfl
@[simp] theorem withPicture_clock : (s.withPicture x).clock = s.clock := rfl
@[simp] theorem withPicture_showList : (s.withPicture x).showList = s.showList := rfl
@[simp] theorem withPicture_seq : (s.withPicture x).seq = s.seq := rfl
@[simp] theorem withPicture_picture : (s.withPicture x).picture = x := rfl
@[simp] theorem withPicture_sound : (s.withPicture x).sound = s.sound := rfl
@[simp] theorem withPicture_text : (s.withPicture x).text = s.text := rfl
@[simp] theorem withPicture_caption : (s.withPicture x).caption = s.caption := rfl
@[simp] theorem withPicture_lines : (s.withPicture x).lines = s.lines := rfl
@[simp] theorem withPicture_cues : (s.withPicture x).cues = s.cues := rfl
@[simp] theorem withPicture_recorder : (s.withPicture x).recorder = s.recorder := rfl
@[simp] theorem withPicture_mgmt : (s.withPicture x).mgmt = s.mgmt := rfl
@[simp] theorem withPicture_reports : (s.withPicture x).reports = s.reports := rfl
@[simp] theorem withPicture_lane : (s.withPicture x).lane = s.lane := rfl
@[simp] theorem withPicture_pending : (s.withPicture x).pending = s.pending := rfl
end withPicture

section withSound
variable (s : State) (x : SoundEngine)
@[simp] theorem withSound_supplies : (s.withSound x).supplies = s.supplies := rfl
@[simp] theorem withSound_link : (s.withSound x).link = s.link := rfl
@[simp] theorem withSound_track : (s.withSound x).track = s.track := rfl
@[simp] theorem withSound_engine : (s.withSound x).engine = s.engine := rfl
@[simp] theorem withSound_licences : (s.withSound x).licences = s.licences := rfl
@[simp] theorem withSound_clock : (s.withSound x).clock = s.clock := rfl
@[simp] theorem withSound_showList : (s.withSound x).showList = s.showList := rfl
@[simp] theorem withSound_seq : (s.withSound x).seq = s.seq := rfl
@[simp] theorem withSound_picture : (s.withSound x).picture = s.picture := rfl
@[simp] theorem withSound_sound : (s.withSound x).sound = x := rfl
@[simp] theorem withSound_text : (s.withSound x).text = s.text := rfl
@[simp] theorem withSound_caption : (s.withSound x).caption = s.caption := rfl
@[simp] theorem withSound_lines : (s.withSound x).lines = s.lines := rfl
@[simp] theorem withSound_cues : (s.withSound x).cues = s.cues := rfl
@[simp] theorem withSound_recorder : (s.withSound x).recorder = s.recorder := rfl
@[simp] theorem withSound_mgmt : (s.withSound x).mgmt = s.mgmt := rfl
@[simp] theorem withSound_reports : (s.withSound x).reports = s.reports := rfl
@[simp] theorem withSound_lane : (s.withSound x).lane = s.lane := rfl
@[simp] theorem withSound_pending : (s.withSound x).pending = s.pending := rfl
end withSound

section withText
variable (s : State) (x : TextEngine)
@[simp] theorem withText_supplies : (s.withText x).supplies = s.supplies := rfl
@[simp] theorem withText_link : (s.withText x).link = s.link := rfl
@[simp] theorem withText_track : (s.withText x).track = s.track := rfl
@[simp] theorem withText_engine : (s.withText x).engine = s.engine := rfl
@[simp] theorem withText_licences : (s.withText x).licences = s.licences := rfl
@[simp] theorem withText_clock : (s.withText x).clock = s.clock := rfl
@[simp] theorem withText_showList : (s.withText x).showList = s.showList := rfl
@[simp] theorem withText_seq : (s.withText x).seq = s.seq := rfl
@[simp] theorem withText_picture : (s.withText x).picture = s.picture := rfl
@[simp] theorem withText_sound : (s.withText x).sound = s.sound := rfl
@[simp] theorem withText_text : (s.withText x).text = x := rfl
@[simp] theorem withText_caption : (s.withText x).caption = s.caption := rfl
@[simp] theorem withText_lines : (s.withText x).lines = s.lines := rfl
@[simp] theorem withText_cues : (s.withText x).cues = s.cues := rfl
@[simp] theorem withText_recorder : (s.withText x).recorder = s.recorder := rfl
@[simp] theorem withText_mgmt : (s.withText x).mgmt = s.mgmt := rfl
@[simp] theorem withText_reports : (s.withText x).reports = s.reports := rfl
@[simp] theorem withText_lane : (s.withText x).lane = s.lane := rfl
@[simp] theorem withText_pending : (s.withText x).pending = s.pending := rfl
end withText

section withCaption
variable (s : State) (x : CaptionLine)
@[simp] theorem withCaption_supplies : (s.withCaption x).supplies = s.supplies := rfl
@[simp] theorem withCaption_link : (s.withCaption x).link = s.link := rfl
@[simp] theorem withCaption_track : (s.withCaption x).track = s.track := rfl
@[simp] theorem withCaption_engine : (s.withCaption x).engine = s.engine := rfl
@[simp] theorem withCaption_licences : (s.withCaption x).licences = s.licences := rfl
@[simp] theorem withCaption_clock : (s.withCaption x).clock = s.clock := rfl
@[simp] theorem withCaption_showList : (s.withCaption x).showList = s.showList := rfl
@[simp] theorem withCaption_seq : (s.withCaption x).seq = s.seq := rfl
@[simp] theorem withCaption_picture : (s.withCaption x).picture = s.picture := rfl
@[simp] theorem withCaption_sound : (s.withCaption x).sound = s.sound := rfl
@[simp] theorem withCaption_text : (s.withCaption x).text = s.text := rfl
@[simp] theorem withCaption_caption : (s.withCaption x).caption = x := rfl
@[simp] theorem withCaption_lines : (s.withCaption x).lines = s.lines := rfl
@[simp] theorem withCaption_cues : (s.withCaption x).cues = s.cues := rfl
@[simp] theorem withCaption_recorder : (s.withCaption x).recorder = s.recorder := rfl
@[simp] theorem withCaption_mgmt : (s.withCaption x).mgmt = s.mgmt := rfl
@[simp] theorem withCaption_reports : (s.withCaption x).reports = s.reports := rfl
@[simp] theorem withCaption_lane : (s.withCaption x).lane = s.lane := rfl
@[simp] theorem withCaption_pending : (s.withCaption x).pending = s.pending := rfl
end withCaption

section withLines
variable (s : State) (x : LineController)
@[simp] theorem withLines_supplies : (s.withLines x).supplies = s.supplies := rfl
@[simp] theorem withLines_link : (s.withLines x).link = s.link := rfl
@[simp] theorem withLines_track : (s.withLines x).track = s.track := rfl
@[simp] theorem withLines_engine : (s.withLines x).engine = s.engine := rfl
@[simp] theorem withLines_licences : (s.withLines x).licences = s.licences := rfl
@[simp] theorem withLines_clock : (s.withLines x).clock = s.clock := rfl
@[simp] theorem withLines_showList : (s.withLines x).showList = s.showList := rfl
@[simp] theorem withLines_seq : (s.withLines x).seq = s.seq := rfl
@[simp] theorem withLines_picture : (s.withLines x).picture = s.picture := rfl
@[simp] theorem withLines_sound : (s.withLines x).sound = s.sound := rfl
@[simp] theorem withLines_text : (s.withLines x).text = s.text := rfl
@[simp] theorem withLines_caption : (s.withLines x).caption = s.caption := rfl
@[simp] theorem withLines_lines : (s.withLines x).lines = x := rfl
@[simp] theorem withLines_cues : (s.withLines x).cues = s.cues := rfl
@[simp] theorem withLines_recorder : (s.withLines x).recorder = s.recorder := rfl
@[simp] theorem withLines_mgmt : (s.withLines x).mgmt = s.mgmt := rfl
@[simp] theorem withLines_reports : (s.withLines x).reports = s.reports := rfl
@[simp] theorem withLines_lane : (s.withLines x).lane = s.lane := rfl
@[simp] theorem withLines_pending : (s.withLines x).pending = s.pending := rfl
end withLines

section withCues
variable (s : State) (x : Vector AutoCue 256)
@[simp] theorem withCues_supplies : (s.withCues x).supplies = s.supplies := rfl
@[simp] theorem withCues_link : (s.withCues x).link = s.link := rfl
@[simp] theorem withCues_track : (s.withCues x).track = s.track := rfl
@[simp] theorem withCues_engine : (s.withCues x).engine = s.engine := rfl
@[simp] theorem withCues_licences : (s.withCues x).licences = s.licences := rfl
@[simp] theorem withCues_clock : (s.withCues x).clock = s.clock := rfl
@[simp] theorem withCues_showList : (s.withCues x).showList = s.showList := rfl
@[simp] theorem withCues_seq : (s.withCues x).seq = s.seq := rfl
@[simp] theorem withCues_picture : (s.withCues x).picture = s.picture := rfl
@[simp] theorem withCues_sound : (s.withCues x).sound = s.sound := rfl
@[simp] theorem withCues_text : (s.withCues x).text = s.text := rfl
@[simp] theorem withCues_caption : (s.withCues x).caption = s.caption := rfl
@[simp] theorem withCues_lines : (s.withCues x).lines = s.lines := rfl
@[simp] theorem withCues_cues : (s.withCues x).cues = x := rfl
@[simp] theorem withCues_recorder : (s.withCues x).recorder = s.recorder := rfl
@[simp] theorem withCues_mgmt : (s.withCues x).mgmt = s.mgmt := rfl
@[simp] theorem withCues_reports : (s.withCues x).reports = s.reports := rfl
@[simp] theorem withCues_lane : (s.withCues x).lane = s.lane := rfl
@[simp] theorem withCues_pending : (s.withCues x).pending = s.pending := rfl
end withCues

section withRecorder
variable (s : State) (x : Recorder)
@[simp] theorem withRecorder_supplies : (s.withRecorder x).supplies = s.supplies := rfl
@[simp] theorem withRecorder_link : (s.withRecorder x).link = s.link := rfl
@[simp] theorem withRecorder_track : (s.withRecorder x).track = s.track := rfl
@[simp] theorem withRecorder_engine : (s.withRecorder x).engine = s.engine := rfl
@[simp] theorem withRecorder_licences : (s.withRecorder x).licences = s.licences := rfl
@[simp] theorem withRecorder_clock : (s.withRecorder x).clock = s.clock := rfl
@[simp] theorem withRecorder_showList : (s.withRecorder x).showList = s.showList := rfl
@[simp] theorem withRecorder_seq : (s.withRecorder x).seq = s.seq := rfl
@[simp] theorem withRecorder_picture : (s.withRecorder x).picture = s.picture := rfl
@[simp] theorem withRecorder_sound : (s.withRecorder x).sound = s.sound := rfl
@[simp] theorem withRecorder_text : (s.withRecorder x).text = s.text := rfl
@[simp] theorem withRecorder_caption : (s.withRecorder x).caption = s.caption := rfl
@[simp] theorem withRecorder_lines : (s.withRecorder x).lines = s.lines := rfl
@[simp] theorem withRecorder_cues : (s.withRecorder x).cues = s.cues := rfl
@[simp] theorem withRecorder_recorder : (s.withRecorder x).recorder = x := rfl
@[simp] theorem withRecorder_mgmt : (s.withRecorder x).mgmt = s.mgmt := rfl
@[simp] theorem withRecorder_reports : (s.withRecorder x).reports = s.reports := rfl
@[simp] theorem withRecorder_lane : (s.withRecorder x).lane = s.lane := rfl
@[simp] theorem withRecorder_pending : (s.withRecorder x).pending = s.pending := rfl
end withRecorder

section withMgmt
variable (s : State) (x : Management)
@[simp] theorem withMgmt_supplies : (s.withMgmt x).supplies = s.supplies := rfl
@[simp] theorem withMgmt_link : (s.withMgmt x).link = s.link := rfl
@[simp] theorem withMgmt_track : (s.withMgmt x).track = s.track := rfl
@[simp] theorem withMgmt_engine : (s.withMgmt x).engine = s.engine := rfl
@[simp] theorem withMgmt_licences : (s.withMgmt x).licences = s.licences := rfl
@[simp] theorem withMgmt_clock : (s.withMgmt x).clock = s.clock := rfl
@[simp] theorem withMgmt_showList : (s.withMgmt x).showList = s.showList := rfl
@[simp] theorem withMgmt_seq : (s.withMgmt x).seq = s.seq := rfl
@[simp] theorem withMgmt_picture : (s.withMgmt x).picture = s.picture := rfl
@[simp] theorem withMgmt_sound : (s.withMgmt x).sound = s.sound := rfl
@[simp] theorem withMgmt_text : (s.withMgmt x).text = s.text := rfl
@[simp] theorem withMgmt_caption : (s.withMgmt x).caption = s.caption := rfl
@[simp] theorem withMgmt_lines : (s.withMgmt x).lines = s.lines := rfl
@[simp] theorem withMgmt_cues : (s.withMgmt x).cues = s.cues := rfl
@[simp] theorem withMgmt_recorder : (s.withMgmt x).recorder = s.recorder := rfl
@[simp] theorem withMgmt_mgmt : (s.withMgmt x).mgmt = x := rfl
@[simp] theorem withMgmt_reports : (s.withMgmt x).reports = s.reports := rfl
@[simp] theorem withMgmt_lane : (s.withMgmt x).lane = s.lane := rfl
@[simp] theorem withMgmt_pending : (s.withMgmt x).pending = s.pending := rfl
end withMgmt

section withReports
variable (s : State) (x : ReportUnit)
@[simp] theorem withReports_supplies : (s.withReports x).supplies = s.supplies := rfl
@[simp] theorem withReports_link : (s.withReports x).link = s.link := rfl
@[simp] theorem withReports_track : (s.withReports x).track = s.track := rfl
@[simp] theorem withReports_engine : (s.withReports x).engine = s.engine := rfl
@[simp] theorem withReports_licences : (s.withReports x).licences = s.licences := rfl
@[simp] theorem withReports_clock : (s.withReports x).clock = s.clock := rfl
@[simp] theorem withReports_showList : (s.withReports x).showList = s.showList := rfl
@[simp] theorem withReports_seq : (s.withReports x).seq = s.seq := rfl
@[simp] theorem withReports_picture : (s.withReports x).picture = s.picture := rfl
@[simp] theorem withReports_sound : (s.withReports x).sound = s.sound := rfl
@[simp] theorem withReports_text : (s.withReports x).text = s.text := rfl
@[simp] theorem withReports_caption : (s.withReports x).caption = s.caption := rfl
@[simp] theorem withReports_lines : (s.withReports x).lines = s.lines := rfl
@[simp] theorem withReports_cues : (s.withReports x).cues = s.cues := rfl
@[simp] theorem withReports_recorder : (s.withReports x).recorder = s.recorder := rfl
@[simp] theorem withReports_mgmt : (s.withReports x).mgmt = s.mgmt := rfl
@[simp] theorem withReports_reports : (s.withReports x).reports = x := rfl
@[simp] theorem withReports_lane : (s.withReports x).lane = s.lane := rfl
@[simp] theorem withReports_pending : (s.withReports x).pending = s.pending := rfl
end withReports

section withLane
variable (s : State) (x : ReturnLane)
@[simp] theorem withLane_supplies : (s.withLane x).supplies = s.supplies := rfl
@[simp] theorem withLane_link : (s.withLane x).link = s.link := rfl
@[simp] theorem withLane_track : (s.withLane x).track = s.track := rfl
@[simp] theorem withLane_engine : (s.withLane x).engine = s.engine := rfl
@[simp] theorem withLane_licences : (s.withLane x).licences = s.licences := rfl
@[simp] theorem withLane_clock : (s.withLane x).clock = s.clock := rfl
@[simp] theorem withLane_showList : (s.withLane x).showList = s.showList := rfl
@[simp] theorem withLane_seq : (s.withLane x).seq = s.seq := rfl
@[simp] theorem withLane_picture : (s.withLane x).picture = s.picture := rfl
@[simp] theorem withLane_sound : (s.withLane x).sound = s.sound := rfl
@[simp] theorem withLane_text : (s.withLane x).text = s.text := rfl
@[simp] theorem withLane_caption : (s.withLane x).caption = s.caption := rfl
@[simp] theorem withLane_lines : (s.withLane x).lines = s.lines := rfl
@[simp] theorem withLane_cues : (s.withLane x).cues = s.cues := rfl
@[simp] theorem withLane_recorder : (s.withLane x).recorder = s.recorder := rfl
@[simp] theorem withLane_mgmt : (s.withLane x).mgmt = s.mgmt := rfl
@[simp] theorem withLane_reports : (s.withLane x).reports = s.reports := rfl
@[simp] theorem withLane_lane : (s.withLane x).lane = x := rfl
@[simp] theorem withLane_pending : (s.withLane x).pending = s.pending := rfl
end withLane

section withPending
variable (s : State) (x : List Instr)
@[simp] theorem withPending_supplies : (s.withPending x).supplies = s.supplies := rfl
@[simp] theorem withPending_link : (s.withPending x).link = s.link := rfl
@[simp] theorem withPending_track : (s.withPending x).track = s.track := rfl
@[simp] theorem withPending_engine : (s.withPending x).engine = s.engine := rfl
@[simp] theorem withPending_licences : (s.withPending x).licences = s.licences := rfl
@[simp] theorem withPending_clock : (s.withPending x).clock = s.clock := rfl
@[simp] theorem withPending_showList : (s.withPending x).showList = s.showList := rfl
@[simp] theorem withPending_seq : (s.withPending x).seq = s.seq := rfl
@[simp] theorem withPending_picture : (s.withPending x).picture = s.picture := rfl
@[simp] theorem withPending_sound : (s.withPending x).sound = s.sound := rfl
@[simp] theorem withPending_text : (s.withPending x).text = s.text := rfl
@[simp] theorem withPending_caption : (s.withPending x).caption = s.caption := rfl
@[simp] theorem withPending_lines : (s.withPending x).lines = s.lines := rfl
@[simp] theorem withPending_cues : (s.withPending x).cues = s.cues := rfl
@[simp] theorem withPending_recorder : (s.withPending x).recorder = s.recorder := rfl
@[simp] theorem withPending_mgmt : (s.withPending x).mgmt = s.mgmt := rfl
@[simp] theorem withPending_reports : (s.withPending x).reports = s.reports := rfl
@[simp] theorem withPending_lane : (s.withPending x).lane = s.lane := rfl
@[simp] theorem withPending_pending : (s.withPending x).pending = x := rfl
end withPending

end Sys2Proof.Machine.State
end

