-- ==== Sys2Proof/Laws/Frame.lean ====
section
/-! SUPPORT. What each shared operation of the blocks can change: one frame lemma per operation. A caller reads the
equation of any block not listed by `Only.eq`. -/

namespace Sys2Proof.Machine

/-! ### The frame relation -/

theorem Only.refl (ps : List Part) (s : State) : Only ps s s := by
  intro p _
  cases p <;> rfl

theorem Only.mono {ps qs : List Part} {s t : State} (h : Only ps s t) (sub : ps ⊆ qs) : Only qs s t :=
  fun p hp => h p (fun hq => hp (sub hq))

theorem Only.trans {ps qs : List Part} {s t u : State} (h : Only ps s t) (k : Only qs t u) : Only (ps ++ qs) s u := by
  intro p hp
  have h1 := h p (fun hq => hp (List.mem_append_left _ hq))
  have h2 := k p (fun hq => hp (List.mem_append_right _ hq))
  cases p <;> exact h2.trans h1

/-- Two changes within one list of blocks. -/
theorem Only.comp {ps : List Part} {s t u : State} (h : Only ps s t) (k : Only ps t u) : Only ps s u :=
  (h.trans k).mono (by intro p hp; simpa using hp)

theorem Only.ite {ps : List Part} {s t u : State} (c : Prop) [Decidable c] (h : Only ps s t) (k : Only ps s u) :
    Only ps s (if c then t else u) := by
  split
  · exact h
  · exact k

theorem Only.foldl {α : Type} {ps : List Part} (f : State → α → State) (h : ∀ s a, Only ps s (f s a)) :
    ∀ (l : List α) (s : State), Only ps s (l.foldl f s)
  | [], s => Only.refl ps s
  | a :: l, s => (h s a).comp (Only.foldl f h l (f s a))

/-- A block that a change leaves alone. -/
theorem Only.eq {ps : List Part} {s t : State} (h : Only ps s t) (p : Part) (hp : p ∉ ps) : State.agree p s t := h p hp

/-! ### One block replaced -/

section setters
variable (s : State)
theorem only_withSupplies (x : Supplies) : Only [.supplies] s (s.withSupplies x) := by intro p hp; cases p <;> first | rfl | simp at hp
theorem only_withLink (x : LinkReceiver) : Only [.link] s (s.withLink x) := by intro p hp; cases p <;> first | rfl | simp at hp
theorem only_withTrack (x : TrackAssembler) : Only [.track] s (s.withTrack x) := by intro p hp; cases p <;> first | rfl | simp at hp
theorem only_withEngine (x : Option UnpackJob) : Only [.engine] s (s.withEngine x) := by intro p hp; cases p <;> first | rfl | simp at hp
theorem only_withLicences (x : Vector Licence 64) : Only [.licences] s (s.withLicences x) := by intro p hp; cases p <;> first | rfl | simp at hp
theorem only_withClock (x : BoothTime) : Only [.clock] s (s.withClock x) := by intro p hp; cases p <;> first | rfl | simp at hp
theorem only_withShowList (x : Vector Entry 128) : Only [.showList] s (s.withShowList x) := by intro p hp; cases p <;> first | rfl | simp at hp
theorem only_withSeq (x : Sequencer) : Only [.seq] s (s.withSeq x) := by intro p hp; cases p <;> first | rfl | simp at hp
theorem only_withPicture (x : PicturePort) : Only [.picture] s (s.withPicture x) := by intro p hp; cases p <;> first | rfl | simp at hp
theorem only_withSound (x : SoundEngine) : Only [.sound] s (s.withSound x) := by intro p hp; cases p <;> first | rfl | simp at hp
theorem only_withText (x : TextEngine) : Only [.text] s (s.withText x) := by intro p hp; cases p <;> first | rfl | simp at hp
theorem only_withCaption (x : CaptionLine) : Only [.caption] s (s.withCaption x) := by intro p hp; cases p <;> first | rfl | simp at hp
theorem only_withLines (x : LineController) : Only [.lines] s (s.withLines x) := by intro p hp; cases p <;> first | rfl | simp at hp
theorem only_withCues (x : Vector AutoCue 256) : Only [.cues] s (s.withCues x) := by intro p hp; cases p <;> first | rfl | simp at hp
theorem only_withRecorder (x : Recorder) : Only [.recorder] s (s.withRecorder x) := by intro p hp; cases p <;> first | rfl | simp at hp
theorem only_withMgmt (x : Management) : Only [.mgmt] s (s.withMgmt x) := by intro p hp; cases p <;> first | rfl | simp at hp
theorem only_withReports (x : ReportUnit) : Only [.reports] s (s.withReports x) := by intro p hp; cases p <;> first | rfl | simp at hp
theorem only_withLane (x : ReturnLane) : Only [.lane] s (s.withLane x) := by intro p hp; cases p <;> first | rfl | simp at hp
theorem only_withPending (x : List Instr) : Only [.pending] s (s.withPending x) := by intro p hp; cases p <;> first | rfl | simp at hp
end setters

/-! ### Reports and flags -/

theorem raiseAs_only (k : ReportKind) (n a b : Nat) (s : State) : Only [.reports] s (raiseAs k n a b s) :=
  only_withReports s _

theorem raise_only (k : ReportKind) (a b : Nat) (s : State) : Only [.reports] s (raise k a b s) :=
  only_withReports s _

theorem raiseIf_only (c : Bool) (k : ReportKind) (a b : Nat) (s : State) : Only [.reports] s (raiseIf c k a b s) :=
  Only.ite _ (raise_only k a b s) (Only.refl _ s)

theorem setFlagsBy_only (x y z : Mask8) (s : State) : Only [.seq] s (setFlagsBy x y z s) := only_withSeq s _

theorem takeGo_only (s : State) : Only [.seq] s (takeGo s).2 := by
  unfold takeGo
  split
  · split
    · exact Only.refl _ s
    · exact only_withSeq s _
  · split
    · exact Only.refl _ s
    · exact only_withSeq s _
  all_goals exact Only.refl _ s

theorem takePause_only (s : State) : Only [.seq] s (takePause s).2 := by
  unfold takePause
  split
  · exact only_withSeq s _
  · exact only_withSeq s _
  · split
    · exact only_withSeq s _
    · exact Only.refl _ s
  all_goals exact Only.refl _ s

theorem takeResume_only (s : State) : Only [.seq] s (takeResume s).2 := by
  unfold takeResume
  repeat' split
  all_goals first | exact Only.refl _ s | exact only_withSeq s _

theorem takeStop_only (s : State) : Only [.seq] s (takeStop s).2 := by
  unfold takeStop
  split
  · exact Only.refl _ s
  · exact only_withSeq s _

theorem joinHeld_only (i : Nat) (s : State) : Only [.seq] s (joinHeld i s) := only_withSeq s _

theorem leaveHeld_only (i : Nat) (s : State) : Only [.seq] s (leaveHeld i s) := only_withSeq s _

theorem starve_only (s : State) : Only [.seq, .reports] s (starve s) := (only_withSeq s _).trans (raise_only _ _ _ _)

/-! ### Recorder -/

theorem feedRecord_only (f : ShowRecord → ShowRecord) (s : State) : Only [.recorder] s (feedRecord f s) :=
  only_withRecorder s _

theorem feedResult_only (f : SegResult → SegResult) (s : State) : Only [.recorder] s (feedResult f s) :=
  only_withRecorder s _

theorem recordSelection_only (l : List Nat) (c : Context) (s : State) : Only [.recorder] s (recordSelection l c s) :=
  only_withRecorder s _

theorem openShowing_only (l : List Nat) (s : State) : Only [.recorder] s (openShowing l s) := only_withRecorder s _

theorem appendLog_only (x : LogRecord) (s : State) : Only [.recorder, .reports] s (appendLog x s) := by
  have h1 : ∀ (a b : Bool) (n m k j : Nat) (r : Recorder) (u : State),
      Only [.recorder, .reports] u
        (raiseIf a .logFull n m (raiseIf b .logHalf k j (u.withRecorder r))) := fun a b n m k j r u =>
    (((only_withRecorder u r).trans (raiseIf_only b _ _ _ _)).trans (raiseIf_only a _ _ _ _)).mono (by decide)
  have h2 : ∀ (n : Nat) (r : Recorder) (d : Nat),
      Only [.recorder, .reports] s (raise .logOverwrite n d (s.withRecorder r)) := fun n r d =>
    ((only_withRecorder s r).trans (raise_only _ _ _ _)).mono (by decide)
  unfold appendLog
  cases s.recorder.losing with
  | none => exact h1 _ _ _ _ _ _ _ _
  | some old => exact (h2 _ _ _).comp (h1 _ _ _ _ _ _ _ _)

theorem closeShowing_only (c : EndCause) (n : Nat) (s : State) : Only [.recorder, .reports] s (closeShowing c n s) := by
  unfold closeShowing
  split
  · exact (((only_withRecorder s _).mono (by decide)).comp (appendLog_only _ _)).comp
      ((raiseAs_only _ _ _ _ _).mono (by decide))
  · exact Only.refl _ s

/-! ### Licences and booth clock -/

theorem releaseSlot_only (s : State) (i : Nat) : Only [.licences, .reports] s (releaseSlot s i) := by
  unfold releaseSlot
  exact Only.ite _ (((only_withLicences s _).trans (raiseIf_only _ _ _ _ _)).mono (by decide)) (Only.refl _ s)

theorem releaseAll_only (s : State) : Only [.licences, .reports] s (releaseAll s) :=
  Only.foldl _ releaseSlot_only _ s

theorem lapseSlot_only (s : State) (i : Nat) : Only [.licences, .reports] s (lapseSlot s i) := by
  unfold lapseSlot
  exact Only.ite _ (((only_withLicences s _).trans (raise_only _ _ _ _)).mono (by decide)) (Only.refl _ s)

theorem lapseCheck_only (s : State) : Only [.licences, .reports] s (lapseCheck s) :=
  Only.ite _ (Only.foldl _ lapseSlot_only _ s) (Only.refl _ s)

theorem countShowing_only (c : Context) (s : State) : Only [.licences, .recorder, .reports] s (countShowing c s) :=
  (((only_withLicences s _).trans (feedRecord_only _ _)).trans (raise_only _ _ _ _)).mono (by decide)

theorem formPace_only (s : State) : Only [.lane] s (formPace s) := only_withLane s _

theorem boothSecondActs_only (s : State) : Only [.licences, .reports, .lane] s (boothSecondActs s) := by
  unfold boothSecondActs
  dsimp only
  split
  · exact ((lapseCheck_only s).trans (formPace_only _)).mono (by decide)
  · exact (lapseCheck_only s).mono (by decide)

theorem pauseStep_only (s : State) : Only [.seq] s (pauseStep s) := Only.ite _ (only_withSeq s _) (Only.refl _ s)

theorem dividerTick_only (s : State) : Only [.clock, .seq, .licences, .reports, .lane] s (dividerTick s) := by
  have h := only_withClock s s.clock.step
  unfold dividerTick
  dsimp only
  split
  · split
    · exact (h.trans ((pauseStep_only _).trans (boothSecondActs_only _))).mono (by decide)
    · exact (h.trans (pauseStep_only _)).mono (by decide)
  · exact h.mono (by decide)

/-! ### Sound -/

theorem handClip_only (d : Int) (s : State) (i : Nat) : Only [.sound, .recorder, .reports] s (handClip d s i) := by
  unfold handClip
  split
  · have h := feedRecord_only (fun r => { r with clips := addTo top32 r.clips 1 }) s
    dsimp only
    split
    · exact h.mono (by decide)
    · exact ((h.trans (only_withSound _ _)).trans (raise_only _ _ _ _)).mono (by decide)
  · exact Only.refl _ s

theorem sampleTick_only (s : State) : Only [.sound, .recorder, .reports] s (sampleTick s) :=
  (Only.foldl _ (fun s i => handClip_only _ s i) _ s).comp ((only_withSound _ _).mono (by decide))

/-! ### Lines -/

theorem lineAct_only (n : Nat) (a : LineAct) (s : State) : Only [.lines] s (lineAct n a s).1 := only_withLines s _

theorem takeSpanEnd_only (s : State) (n : Nat) : Only [.lines] s (takeSpanEnd s n) :=
  Only.ite _ (only_withLines s _) (Only.refl _ s)

theorem setInput_only (n : Nat) (x : InLine) (s : State) : Only [.lines] s (setInput n x s) := only_withLines s _

theorem inputAction_only (n : Nat) (r : Bool) (a : InAction) (s : State) :
    Only [.seq, .reports] s (inputAction n r a s) := by
  have c : ∀ (d : Nat) (x : ReplyOutcome × State), Only [.seq] s x.2 →
      Only [.seq, .reports] s (controlAction d x) := fun d x h =>
    Only.ite _ (h.mono (by decide)) ((h.trans (raise_only _ _ _ _)).mono (by decide))
  unfold inputAction
  cases a with
  | none => exact Only.refl _ s
  | go => exact c _ _ (takeGo_only s)
  | pause => exact c _ _ (takePause_only s)
  | resume => exact c _ _ (takeResume_only s)
  | stop => exact c _ _ (takeStop_only s)
  | flag x y z => exact (setFlagsBy_only x y z s).mono (by decide)
  | report => exact (raise_only _ _ _ s).mono (by decide)

theorem acceptEdge_only (n : Nat) (s : State) : Only [.lines, .seq, .reports] s (acceptEdge n s) := by
  have held : ∀ (b c : Bool) (u : State), Only [.lines, .seq, .reports] u
      (if b then (if c then joinHeld n u else leaveHeld n u) else u) := fun b c u =>
    Only.ite _ (Only.ite _ ((joinHeld_only n u).mono (by decide)) ((leaveHeld_only n u).mono (by decide)))
      (Only.refl _ u)
  unfold acceptEdge
  dsimp only
  split
  · exact ((((setInput_only n _ s).mono (by decide)).comp (held _ _ _)).trans
      ((setInput_only n _ _).trans (inputAction_only n _ _ _))).mono (by decide)
  · exact ((setInput_only n _ s).mono (by decide)).comp (held _ _ _)

theorem takeEdge_only (s : State) (n : Nat) : Only [.lines, .seq, .reports] s (takeEdge s n) :=
  Only.ite _ (acceptEdge_only n s) (Only.refl _ s)

theorem configureInput_only (n : Nat) (c : InConfig) (s : State) : Only [.lines, .seq] s (configureInput n c s) := by
  have h := setInput_only n
  unfold configureInput
  dsimp only
  split
  · split
    · exact (h _ s).mono (by decide)
    · exact ((h _ s).trans (joinHeld_only n _)).mono (by decide)
  · split
    · exact ((h _ s).trans (leaveHeld_only n _)).mono (by decide)
    · exact (h _ s).mono (by decide)

theorem takeLaneDown_only (s : State) : Only [.link, .reports] s (takeLaneDown s) :=
  Only.ite _ (((only_withLink s _).trans (raise_only _ _ _ _)).mono (by decide)) (Only.refl _ s)

theorem settleDue_only (s : State) : Only [.lines, .seq, .link, .reports] s (settleDue s) :=
  (((Only.foldl _ takeSpanEnd_only _ s).trans (Only.foldl _ takeEdge_only _ _)).trans
    (takeLaneDown_only _)).mono (by decide)

theorem lineMillisecondTick_only (pins : Mask8) (s : State) :
    Only [.lines, .seq, .link, .reports] s (lineMillisecondTick pins s) :=
  ((settleDue_only s).trans ((only_withLines _ _).trans (only_withLink _ _))).mono (by decide)

/-! ### Slots and queues -/

theorem setAssembly_only (slot : Nat) (a : Assembly) (s : State) : Only [.track] s (setAssembly slot a s) :=
  only_withTrack s _

theorem setQueue_only (slot : Nat) (q : List UnitRec) (s : State) : Only [.track] s (setQueue slot q s) :=
  only_withTrack s _

theorem bump_only (f : LinkCounters → LinkCounters) (s : State) : Only [.link] s (bump f s) := only_withLink s _

theorem markAbandoned_only (f : UnpackJob → Bool) (n : Nat) (s : State) : Only [.engine] s (markAbandoned f n s) := by
  unfold markAbandoned
  split
  · exact Only.ite _ (only_withEngine s _) (Only.refl _ s)
  · exact Only.refl _ s

theorem leaveQueue_only (slot : Nat) (out rest : List UnitRec) (s : State) :
    Only [.track, .engine] s (leaveQueue slot out rest s) := by
  have skip : ∀ (b : Bool) (u : State), Only [.track] u (if b then setAssembly slot .skipping u else u) := fun b u =>
    Only.ite _ (setAssembly_only slot _ u) (Only.refl _ u)
  exact ((setQueue_only slot rest s).trans ((skip _ _).trans (markAbandoned_only _ _ _))).mono (by decide)

theorem dropUnits_only (slot : Nat) (f : UnitRec → Bool) (s : State) : Only [.track, .engine] s (dropUnits slot f s) :=
  leaveQueue_only slot _ _ s

theorem discardLate_only (slot : Nat) (f : UnitRec → Bool) (s : State) :
    Only [.track, .engine, .link] s (discardLate slot f s) :=
  ((dropUnits_only slot f s).trans (bump_only _ _)).mono (by decide)

theorem discardEntry_only (s : State) (i : Nat) : Only [.track, .engine, .link] s (discardEntry s i) :=
  Only.foldl _ (fun s slot => discardLate_only slot _ s) _ s

theorem boundaryDiscard_only (old s : State) (slot : Nat) :
    Only [.track, .engine, .link] s (boundaryDiscard old s slot) := discardLate_only slot _ s

theorem monoDiscard_only (s : State) : Only [.track, .engine, .link] s (monoDiscard s) := by
  unfold monoDiscard
  split
  · exact Only.ite _ (Only.refl _ s) (discardLate_only _ _ s)
  · exact Only.refl _ s

theorem emptyQueues_only (s : State) : Only [.track, .engine] s (emptyQueues s) :=
  (Only.foldl _ (fun s slot => dropUnits_only slot _ s) _ s).comp
    (Only.foldl _ (fun s slot => Only.ite _ ((setAssembly_only slot _ s).mono (by decide)) (Only.refl _ s)) _ _)

/-! ### Text and captions -/

theorem setStore_only (l : List Resource) (s : State) : Only [.text] s (setStore l s) := only_withText s _

theorem freeResources_only (f : Resource → Bool) (s : State) :
    Only [.text, .track, .engine] s (freeResources f s) := by
  have skip : ∀ (b : Bool) (slot : Nat) (u : State), Only [.track] u (if b then setAssembly slot .skipping u else u) :=
    fun b slot u => Only.ite _ (setAssembly_only slot _ u) (Only.refl _ u)
  exact ((setStore_only _ s).trans ((skip _ 4 _).trans ((skip _ 5 _).trans (markAbandoned_only _ _ _)))).mono (by decide)

theorem pushCaption_only (m : List Byte) (s : State) : Only [.caption] s (pushCaption m s) := only_withCaption s _

theorem markShown_only (d : Displayed) (s : State) : Only [.recorder] s (markShown d s).2 :=
  Only.ite _ (Only.refl _ s) (feedResult_only _ s)

theorem queueShow_only (d : Displayed) (s : State) : Only [.caption, .recorder, .reports] s (queueShow d s).2 := by
  unfold queueShow
  dsimp only
  split
  · exact ((pushCaption_only _ s).trans (markShown_only d _)).mono (by decide)
  · split
    · exact (((pushCaption_only _ s).trans (raise_only _ _ _ _)).trans (markShown_only d _)).mono (by decide)
    · exact ((feedRecord_only _ s).trans (raise_only _ _ _ _)).mono (by decide)

theorem queueClear_only (n : Nat) (s : State) : Only [.caption, .recorder] s (queueClear n s) :=
  Only.ite _ ((pushCaption_only _ s).mono (by decide)) ((feedRecord_only _ s).mono (by decide))

theorem clearIfShowing_only (s : State) (d : Displayed) : Only [.caption, .recorder] s (clearIfShowing s d) :=
  Only.ite _ (Only.refl _ s) (queueClear_only _ s)

theorem setCaptions_only (l : List Displayed) (s : State) : Only [.text] s (setCaptions l s) := only_withText s _

theorem withdrawCaptions_only (s : State) : Only [.text, .caption, .recorder] s (withdrawCaptions s) :=
  ((Only.foldl _ clearIfShowing_only _ s).trans (setCaptions_only _ _)).mono (by decide)

theorem reshowCaptions_only : ∀ (l : List Displayed) (s : State),
    Only [.caption, .recorder, .reports] s (reshowCaptions l s).2
  | [], s => Only.refl _ s
  | d :: l, s => by
    unfold reshowCaptions
    dsimp only
    split
    · exact (queueShow_only _ s).comp (reshowCaptions_only l _)
    · exact reshowCaptions_only l s

theorem admitT0_only (s : State) (c : Cue) : Only [.text, .recorder, .reports] s (admitT0 s c) := by
  unfold admitT0
  split
  · dsimp only
    split
    · exact (only_withText s _).mono (by decide)
    · exact ((only_withText s _).trans (feedRecord_only _ _)).mono (by decide)
  · exact ((feedRecord_only _ s).trans (raise_only _ _ _ _)).mono (by decide)

theorem admitT1_only (w : Bool) (s : State) (c : Cue) :
    Only [.text, .caption, .recorder, .reports] s (admitT1 w s c) := by
  unfold admitT1
  dsimp only
  split
  · exact (setCaptions_only _ s).mono (by decide)
  · exact ((queueShow_only _ s).trans (setCaptions_only _ _)).mono (by decide)

theorem runT0_only (last u : Nat) (s : State) : Only [.text, .recorder, .reports] s (runT0 last u s) :=
  ((only_withText s _).mono (by decide)).comp (Only.foldl _ admitT0_only _ _)

theorem runT1_only (last u : Nat) (resumed : Bool) (s : State) :
    Only [.text, .caption, .recorder, .reports] s (runT1 last u resumed s) := by
  have tail : ∀ (l : List Displayed) (cs : List Cue) (x : TextEngine) (v : State),
      Only [.text, .caption, .recorder, .reports] v (cs.foldl (admitT1 false) ((setCaptions l v).withText x)) :=
    fun l cs x v => (((setCaptions_only l v).trans (only_withText _ x)).mono (by decide)).comp
      (Only.foldl _ (admitT1_only false) _ _)
  have lead := Only.foldl _ clearIfShowing_only (s.text.captions.filter (fun d => decide (d.cue.outPoint ≤ u))) s
  unfold runT1
  dsimp only
  split
  · exact ((lead.mono (by decide)).comp ((reshowCaptions_only _ _).mono (by decide))).comp (tail _ _ _ _)
  · exact (lead.mono (by decide)).comp (tail _ _ _ _)

theorem markOverlay_only (u : Nat) (s : State) (i : Nat) : Only [.text, .recorder] s (markOverlay u s i) := by
  unfold markOverlay
  split
  · exact Only.ite _ (Only.refl _ s) (((only_withText s _).trans (feedResult_only _ _)).mono (by decide))
  · exact Only.refl _ s

theorem setTable_only (slot : Nat) (x : CueTable) (s : State) : Only [.text] s (setTable slot x s) := only_withText s _

theorem loadList_only (g : Segment) (slot : Nat) (s : State) : Only [.text, .recorder] s (loadList g slot s) := by
  unfold loadList
  split
  · split
    · exact ((setTable_only _ _ s).trans (feedRecord_only _ _)).mono (by decide)
    · exact Only.refl _ s
  · exact Only.refl _ s

theorem lateLoad_only (slot c : Nat) (r : Resource) (s : State) :
    Only [.text, .caption, .recorder, .reports] s (lateLoad slot c r s) := by
  have load : ∀ (x : CueTable) (n : Nat),
      Only [.text, .caption, .recorder, .reports] s (countBadCues n (setTable slot x s)) := fun x n =>
    ((setTable_only slot x s).trans (feedRecord_only _ _)).mono (by decide)
  unfold lateLoad
  dsimp only
  refine Only.comp ?_ ((raise_only _ _ _ _).mono (by decide))
  split
  · exact (load _ _).comp ((Only.foldl _ admitT0_only _ _).mono (by decide))
  · exact (load _ _).comp (Only.foldl _ (admitT1_only _) _ _)

theorem listReady_only (r : Resource) (s : State) : Only [.text, .caption, .recorder, .reports] s (listReady r s) := by
  unfold listReady
  split
  · exact Only.ite _ (lateLoad_only _ _ r s) (Only.refl _ s)
  · exact Only.refl _ s

theorem clearDisplays_only (s : State) : Only [.text, .caption, .recorder] s (clearDisplays s) :=
  ((Only.foldl _ clearIfShowing_only _ s).trans (only_withText _ _)).mono (by decide)

theorem textSegmentEnd_only (i : Nat) (s : State) :
    Only [.text, .track, .engine, .caption, .recorder] s (textSegmentEnd i s) :=
  ((freeResources_only _ s).trans (clearDisplays_only _)).mono (by decide)

theorem textSelection_only (c : Context) (s : State) : Only [.text, .track, .engine] s (textSelection c s) :=
  freeResources_only _ s

theorem textShowingEnd_only (s : State) : Only [.text, .track, .engine, .caption, .recorder] s (textShowingEnd s) :=
  ((freeResources_only _ s).trans (clearDisplays_only _)).mono (by decide)

/-! ### Cells -/

theorem headerError_only (s : State) : Only [.link, .reports] s (headerError s) := by
  unfold headerError
  dsimp only
  split
  · exact (((bump_only _ s).trans (only_withLink _ _)).trans (raise_only _ _ _ _)).mono (by decide)
  · exact (bump_only _ s).mono (by decide)

theorem laneValid_only (s : State) : Only [.link, .reports] s (laneValid s) := by
  unfold laneValid
  dsimp only
  split
  · exact ((takeLaneDown_only s).trans (only_withLink _ _)).mono (by decide)
  · exact (((takeLaneDown_only s).trans (only_withLink _ _)).trans (raise_only _ _ _ _)).mono (by decide)

theorem changeOpen_only (f : UnitRec → UnitRec) (slot : Nat) (s : State) : Only [.track] s (changeOpen f slot s) :=
  setQueue_only slot _ s

theorem changeOpenRes_only (f : Resource → Resource) (slot : Nat) (s : State) :
    Only [.text] s (changeOpenRes f slot s) := setStore_only _ s

theorem damageOpen_only (d : Defect) (slot : Nat) (s : State) : Only [.track, .text] s (damageOpen d slot s) :=
  Only.ite _ ((changeOpen_only _ slot s).mono (by decide)) ((changeOpenRes_only _ slot s).mono (by decide))

theorem sequenceCheck_only (slot n : Nat) (s : State) : Only [.track, .text, .link] s (sequenceCheck slot n s) := by
  unfold sequenceCheck
  dsimp only
  split
  · exact (only_withTrack s _).mono (by decide)
  · split
    · exact (only_withTrack s _).mono (by decide)
    · split
      · exact (((only_withTrack s _).trans (bump_only _ _)).trans (damageOpen_only _ slot _)).mono (by decide)
      · exact ((only_withTrack s _).trans (bump_only _ _)).mono (by decide)

theorem addUnitPayload_only (slot : Nat) (p : List Byte) (s : State) :
    Only [.track, .link] s (addUnitPayload slot p s) := by
  unfold addUnitPayload
  split
  · exact Only.refl _ s
  · split
    · exact Only.refl _ s
    · split
      · exact ((changeOpen_only _ slot s).trans (bump_only _ _)).mono (by decide)
      · exact (changeOpen_only _ slot s).mono (by decide)

theorem addResPayload_only (slot : Nat) (p : List Byte) (s : State) :
    Only [.track, .text, .link, .reports] s (addResPayload slot p s) := by
  unfold addResPayload
  split
  · exact Only.refl _ s
  · split
    · exact Only.refl _ s
    · split
      · exact ((changeOpenRes_only _ slot s).trans (bump_only _ _)).mono (by decide)
      · split
        · exact ((((setStore_only _ s).trans (raise_only _ _ _ _)).trans (bump_only _ _)).trans
            (setAssembly_only slot _ _)).mono (by decide)
        · exact (changeOpenRes_only _ slot s).mono (by decide)

theorem addPayload_only (slot : Nat) (p : List Byte) (s : State) :
    Only [.track, .text, .link, .reports] s (addPayload slot p s) :=
  Only.ite _ ((addUnitPayload_only slot p s).mono (by decide)) (addResPayload_only slot p s)

theorem closeUnit_only (slot : Nat) (s : State) : Only [.track, .text] s (closeUnit slot s) := by
  unfold closeUnit
  split
  · exact ((changeOpen_only _ slot s).trans (setAssembly_only slot _ _)).mono (by decide)
  · exact ((changeOpenRes_only _ slot s).trans (setAssembly_only slot _ _)).mono (by decide)

theorem truncateOpen_only (slot : Nat) (s : State) : Only [.track, .text, .link] s (truncateOpen slot s) :=
  (((damageOpen_only _ slot s).trans (bump_only _ _)).trans (closeUnit_only slot _)).mono (by decide)

theorem countRefusal_only (r : RefusedUnit) (s : State) : Only [.link] s (countRefusal r s) := by
  cases r <;> exact bump_only _ s

theorem createResource_only (slot seg id len : Nat) (s : State) :
    Only [.text, .reports] s (createResource slot seg id len s).2 := by
  unfold createResource
  dsimp only
  split
  · exact Only.refl _ s
  · split
    · exact ((setStore_only _ s).trans (raise_only _ _ _ _)).mono (by decide)
    · exact ((setStore_only _ s).trans (setStore_only _ _)).mono (by decide)

theorem acceptUnit_only (slot seg unit len : Nat) (s : State) :
    Only [.track, .text, .reports] s (acceptUnit slot seg unit len s).2 := by
  unfold acceptUnit
  split
  · split
    · exact Only.refl _ s
    · exact (setQueue_only slot _ s).mono (by decide)
  · split
    · exact Only.refl _ s
    · exact (createResource_only slot seg unit len s).mono (by decide)

theorem endIfMarked_only (b : Bool) (slot : Nat) (s : State) : Only [.track, .text] s (endIfMarked b slot s) :=
  Only.ite _ (closeUnit_only slot s) (Only.refl _ s)

theorem startUnit_only (c : Cell) (s : State) : Only [.track, .text, .link, .reports] s (startUnit c s) := by
  have h := acceptUnit_only c.slot c.segment c.unitNumber c.payload.length s
  unfold startUnit
  split
  · rename_i r s1 e
    rw [e] at h
    exact ((h.trans (countRefusal_only r _)).trans (setAssembly_only _ _ _)).mono (by decide)
  · rename_i s1 e
    rw [e] at h
    exact (((h.trans (setAssembly_only _ _ _)).trans (addPayload_only _ _ _)).trans
      (endIfMarked_only _ _ _)).mono (by decide)

theorem assembleCell_only (c : Cell) (s : State) : Only [.track, .text, .link, .reports] s (assembleCell c s) := by
  unfold assembleCell
  split
  · split
    · exact ((truncateOpen_only _ s).mono (by decide)).comp (startUnit_only c _)
    · exact startUnit_only c s
  · split
    · exact (bump_only _ s).mono (by decide)
    · exact ((addPayload_only _ _ s).trans (endIfMarked_only _ _ _)).mono (by decide)
    · exact Only.ite _ ((setAssembly_only _ _ s).mono (by decide)) (Only.refl _ s)

theorem arriveRequest_only (r : Request) (s : State) : Only [.mgmt] s (arriveRequest r s) := by
  unfold arriveRequest
  dsimp only
  split
  · exact only_withMgmt s _
  · split
    · exact only_withMgmt s _
    · exact only_withMgmt s _

theorem handleCell_only (c : Cell) (s : State) : Only [.track, .text, .link, .reports, .mgmt] s (handleCell c s) := by
  unfold handleCell
  split
  · exact ((sequenceCheck_only _ _ s).trans (assembleCell_only c _)).mono (by decide)
  · exact ((sequenceCheck_only _ _ s).trans (assembleCell_only c _)).mono (by decide)
  · exact (arriveRequest_only _ s).mono (by decide)
  · exact Only.refl _ s

theorem receiveCell_only (c : Cell) (s : State) : Only [.track, .text, .link, .reports, .mgmt] s (receiveCell c s) := by
  unfold receiveCell
  split
  · exact ((laneValid_only s).mono (by decide)).comp (handleCell_only c _)
  · exact (headerError_only s).mono (by decide)

/-! ### The unpacking engine -/

theorem changeUnit_only (slot seg unit : Nat) (f : UnitRec → UnitRec) (g : Resource → Resource) (s : State) :
    Only [.track, .text] s (changeUnit slot seg unit f g s) :=
  Only.ite _ ((setQueue_only slot _ s).mono (by decide)) ((setStore_only _ s).mono (by decide))

theorem engineTake_only (s : State) : Only [.track, .text, .engine] s (engineTake s) := by
  unfold engineTake
  repeat' split
  all_goals first
    | exact Only.refl _ s
    | exact ((changeUnit_only _ _ _ _ _ s).trans (only_withEngine _ _)).mono (by decide)

theorem resourceReady_only (seg slot id : Nat) (s : State) :
    Only [.text, .caption, .recorder, .reports] s (resourceReady seg slot id s) := by
  unfold resourceReady
  split
  · exact Only.ite _ (listReady_only _ s) (Only.refl _ s)
  · exact Only.refl _ s

theorem engineComplete_only (s : State) :
    Only [.track, .text, .engine, .caption, .recorder, .reports] s (engineComplete s) := by
  unfold engineComplete
  split
  · exact Only.refl _ s
  · split
    · exact Only.refl _ s
    · split
      · exact (only_withEngine s _).mono (by decide)
      · rename_i j _ _ _ len content _
        have h := (changeUnit_only j.slot j.seg j.unit (finishUnit j (unpack j len content))
          (finishResource j (unpack j len content)) s).trans (only_withEngine _ none)
        dsimp only
        split
        · exact h.mono (by decide)
        · exact (h.mono (by decide)).comp ((resourceReady_only _ _ _ _).mono (by decide))

theorem engineAbandon_only (s : State) : Only [.engine] s (engineAbandon s) := by
  unfold engineAbandon
  split
  · exact Only.ite _ (only_withEngine s _) (Only.refl _ s)
  · exact Only.refl _ s

end Sys2Proof.Machine
end

