-- ==== Sys2Proof/Laws/BoundaryFrame.lean ====
section
/-! SUPPORT. What a unit boundary, a media tick, a request, a start and a return cell can change: one frame lemma per
shared operation of Sequencer.lean, Boundary.lean, Tick.lean, Reply.lean, Start.lean and Cells.lean. -/

namespace Sys2Proof.Machine

/-! ### The Sequencer at a boundary -/

theorem enterSegment_only (l : List Nat) (p : Nat) (s : State) :
    Only [.recorder, .seq, .reports, .track, .engine, .link, .text, .sound] s (enterSegment l p s) :=
  ((((((recordSelection_only l _ s).trans (only_withSeq _ _)).trans (raise_only _ _ _ _)).trans
    (Only.foldl _ discardEntry_only _ _)).trans (textSelection_only _ _)).trans (only_withSound _ _)).mono (by decide)

theorem boundaryUnit_only (s : State) :
    Only [.seq, .reports, .recorder, .text, .track, .engine, .caption] s (boundaryUnit s) := by
  unfold boundaryUnit
  dsimp only
  split
  · exact ((((only_withSeq s _).trans (feedResult_only _ _)).trans (raise_only _ _ _ _)).trans
      (textSegmentEnd_only _ _)).mono (by decide)
  · exact ((only_withSeq s _).trans (only_withSeq _ _)).mono (by decide)

theorem boundarySelect_only {c : Context} {s t : State} (h : boundarySelect c s = some t) :
    Only [.recorder, .seq, .reports, .track, .engine, .link, .text, .sound] s t := by
  unfold boundarySelect at h
  dsimp only at h
  split at h
  · cases h
    exact ((enterSegment_only _ _ s).trans (only_withSeq _ _)).mono (by decide)
  · cases h

theorem boundarySkips_only (c : Context) (s : State) :
    Only [.recorder, .track, .engine, .link] s (boundarySkips c s) :=
  ((feedRecord_only _ s).trans (Only.foldl _ discardEntry_only _ _)).mono (by decide)

theorem boundaryPause_only (s : State) : Only [.seq, .recorder] s (boundaryPause s) := by
  unfold boundaryPause
  split
  · exact Only.ite _ (((only_withSeq s _).trans (feedRecord_only _ _)).mono (by decide)) (Only.refl _ s)
  · exact Only.refl _ s

theorem boundaryResume_only (s : State) : Only [.seq, .recorder] s (boundaryResume s) :=
  Only.ite _ (((feedRecord_only _ s).trans (only_withSeq _ _)).mono (by decide)) (Only.refl _ s)

theorem boundaryGo_only (s : State) : Only [.seq, .recorder] s (boundaryGo s) := by
  unfold boundaryGo
  split
  · dsimp only
    split
    · split
      · exact ((only_withSeq s _).trans (feedRecord_only _ _)).mono (by decide)
      · exact (only_withSeq s _).mono (by decide)
    · exact Only.refl _ s
  · exact Only.refl _ s

theorem boundaryControls_only (s : State) : Only [.seq, .recorder] s (boundaryControls s) :=
  ((boundaryPause_only s).comp (boundaryResume_only _)).comp (boundaryGo_only _)

theorem handleBoundary_only (s : State) :
    Only [.recorder, .seq, .reports, .track, .engine, .link, .text, .sound, .caption] s (handleBoundary s).after := by
  have h := (boundaryUnit_only s).mono
    (qs := [.recorder, .seq, .reports, .track, .engine, .link, .text, .sound, .caption]) (by decide)
  unfold handleBoundary
  dsimp only
  split
  · exact h
  · split
    · exact h
    · split
      · rename_i c _ _
        split
        · rename_i t e
          exact h.comp (((boundarySelect_only e).trans (boundaryControls_only _)).mono (by decide))
        · exact h.comp ((boundarySkips_only _ _).mono (by decide))
      · exact h.comp ((boundaryControls_only _).mono (by decide))

theorem boundaryReported_only (old s : State) : Only [.seq, .reports] s (boundaryReported old s) :=
  (only_withSeq s _).trans (raiseIf_only _ _ _ _ _)

theorem endShowing_only (c : EndCause) (s : State) :
    Only [.licences, .reports, .track, .engine, .text, .caption, .recorder, .seq, .sound, .picture] s
      (endShowing c s) :=
  (((((((releaseAll_only s).trans (emptyQueues_only _)).trans (textShowingEnd_only _)).trans (only_withSeq _ _)).trans
    (raise_only _ _ _ _)).trans (closeShowing_only _ _ _)).trans
      ((only_withSound _ _).trans (only_withPicture _ _))).mono (by decide)

/-! ### Outputs -/

theorem discardHeads_only (slot : Nat) (s : State) : Only [.track, .engine, .link] s (discardHeads slot s) :=
  ((leaveQueue_only slot _ _ s).trans (bump_only _ _)).mono (by decide)

theorem concealSlot_only (slot : Nat) (c : Cause) (s : State) : Only [.picture, .reports] s (concealSlot slot c s) :=
  Only.ite _ (Only.refl _ s) ((only_withPicture s _).trans (raise_only _ _ _ _))

theorem takeDue_only (g : Segment) (slot : Nat) (s : State) :
    Only [.track, .engine, .link, .picture, .reports] s (takeDue g slot s).2 := by
  have q : ∀ (b : Bool) (l : List UnitRec) (u : State), Only [.track] u (if b then setQueue slot l u else u) :=
    fun b l u => Only.ite _ (setQueue_only slot l u) (Only.refl _ u)
  unfold takeDue
  dsimp only
  split
  · exact (((discardHeads_only slot s).trans (q _ _ _)).trans (only_withPicture _ _)).mono (by decide)
  · exact (((discardHeads_only slot s).trans (q _ _ _)).trans (concealSlot_only slot _ _)).mono (by decide)

theorem sendRecords_only (g : Segment) (a : Taken) (b : Option Taken) (l : List Overlay) (s : State) :
    Only [.picture] s (sendRecords g a b l s) := by
  unfold sendRecords
  split
  · exact only_withPicture s _
  · exact only_withPicture s _

theorem handOutcome_only (t : Taken) (s : State) : Only [.seq, .reports] s (handOutcome t s) := by
  unfold handOutcome
  split
  · exact (only_withSeq s _).mono (by decide)
  · dsimp only
    split
    · exact ((only_withSeq s _).trans (starve_only _)).mono (by decide)
    · exact (only_withSeq s _).mono (by decide)

theorem flipPair_only (c : Context) (s : State) : Only [.showList] s (flipPair c s) :=
  Only.ite _ (only_withShowList s _) (Only.refl _ s)

theorem countAtPoint_only (c : Context) (s : State) : Only [.licences, .recorder, .reports] s (countAtPoint c s) :=
  Only.ite _ (countShowing_only c s) (Only.refl _ s)

theorem runText_only (c : Context) (r : Bool) (s : State) :
    Only [.text, .caption, .recorder, .reports] s (runText c r s) := by
  unfold runText
  dsimp only
  split
  · exact ((((loadList_only c.segment 4 s).trans (loadList_only c.segment 5 _)).trans (runT0_only _ _ _)).trans
      (runT1_only _ _ _ _)).mono (by decide)
  · exact ((runT0_only _ _ s).trans (runT1_only _ _ _ _)).mono (by decide)

theorem beginOutput_only (c : Context) (r : Bool) (s : State) : Only outputParts s (beginOutput c r s) := by
  have due : ∀ (slot : Nat) (u : State), Only outputParts u (takeDue c.segment slot u).2 := fun slot u =>
    (takeDue_only c.segment slot u).mono (by decide)
  have rest : ∀ (a : Taken) (b : Option Taken) (v : State) (p n : Nat) (q : SoundEngine),
      let s2 := countSoundConcealed n (countPictureConcealed p (countUnitOutput (v.withSound q)))
      let s3 := runText c r s2
      Only outputParts v (countAtPoint c (flipPair c (handOutcome a (sendRecords c.segment a b
        (overlayList s3 (reelUnit s3.seq)) ((List.range 4).foldl (markOverlay (reelUnit s3.seq)) s3))))) :=
    fun a b v p n q =>
      ((((((((((only_withSound v q).trans (feedResult_only _ _)).trans (feedResult_only _ _)).trans
        (feedResult_only _ _)).trans (runText_only c r _)).trans (Only.foldl _ (markOverlay_only _) _ _)).trans
        (sendRecords_only _ _ _ _ _)).trans (handOutcome_only _ _)).trans (flipPair_only c _)).trans
        (countAtPoint_only c _)).mono (by decide)
  unfold beginOutput
  dsimp only
  by_cases h : c.segment.stereo
  · simp only [h, if_true]
    exact ((((due 0 s).comp (due 1 _)).comp (due 2 _)).comp (due 3 _)).comp (rest _ _ _ _ _ _)
  · simp only [h]
    exact (((due 0 s).comp (due 2 _)).comp (due 3 _)).comp (rest _ _ _ _ _ _)

theorem beginBlack_only (c : Context) (b : Bool) (s : State) :
    Only [.sound, .picture, .text, .caption, .recorder] s (beginBlack c b s) := by
  have h := (only_withSound s (s.sound.beginUnit false false)).trans
    (only_withPicture _ { (s.withSound (s.sound.beginUnit false false)).picture with
      records := (eyesOf c.segment).map (blackRecord (s.withSound (s.sound.beginUnit false false))) })
  unfold beginBlack
  dsimp only
  split
  · exact (h.trans (withdrawCaptions_only _)).mono (by decide)
  · exact h.mono (by decide)

/-! ### Cues -/

theorem performCue_only (i : Nat) (a : CueAction) (s : State) :
    Only [.lines, .seq, .reports, .sound] s (performCue i a s) := by
  cases a with
  | line n x => exact (lineAct_only n x s).mono (by decide)
  | flag x y z => exact (setFlagsBy_only x y z s).mono (by decide)
  | mark v => exact (raise_only _ _ _ s).mono (by decide)
  | sound p => exact Only.ite _ (Only.refl _ s) ((only_withSound s _).mono (by decide))

theorem fireCue_only (f : Anchor → Bool) (s : State) (i : Nat) :
    Only [.lines, .seq, .reports, .sound] s (fireCue f s i) := Only.ite _ (performCue_only i _ s) (Only.refl _ s)

theorem fireIf_only (b : Bool) (g : Segment) (f : Anchor → Bool) (s : State) :
    Only [.lines, .seq, .reports, .sound] s (fireIf b g f s) :=
  Only.ite _ (Only.foldl _ (fireCue_only f) _ s) (Only.refl _ s)

theorem fireCues_only (c : Context) (a b : Bool) (s : State) :
    Only [.lines, .seq, .reports, .sound] s (fireCues c a b s) :=
  (((fireIf_only _ _ _ s).comp (fireIf_only _ _ _ _)).comp (fireIf_only _ _ _ _)).comp (fireIf_only _ _ _ _)

theorem fireEndCues_only (g : Segment) (c : EndCause) (s : State) :
    Only [.lines, .seq, .reports, .sound] s (fireEndCues g c s) :=
  (fireIf_only _ _ _ s).comp (fireIf_only _ _ _ _)

/-! ### The whole boundary -/

theorem positionKept_only (old s : State) : Only [.seq] s (positionKept old s) := only_withSeq s _

@[simp] theorem positionKept_seg (old s : State) : (positionKept old s).seq.seg = old.seq.seg := rfl
@[simp] theorem positionKept_offset (old s : State) : (positionKept old s).seq.offset = old.seq.offset := rfl

theorem boundaryEnds_only (old : State) (c : EndCause) (s : State) : Only boundaryParts s (boundaryEnds old c s) := by
  have h : Only boundaryParts s (endShowing c (positionKept old s)) :=
    ((positionKept_only old s).trans (endShowing_only c _)).mono (by decide)
  unfold boundaryEnds
  dsimp only
  split
  · exact h.comp (((fireEndCues_only _ _ _).trans (formPace_only _)).mono (by decide))
  · exact h.comp ((formPace_only _).mono (by decide))

theorem boundaryStaged_only (old : State) (f : Bool) (c : Context) (s : State) :
    Only [.track, .engine, .link, .sound] s (boundaryStaged old f c s) :=
  (((Only.foldl _ (boundaryDiscard_only old) _ s).trans (monoDiscard_only _)).trans (only_withSound _ _)).mono (by decide)

theorem boundaryCarries_only (c : Context) (a b : Bool) (s : State) : Only outputParts s (boundaryCarries c a b s) :=
  Only.ite _ (beginOutput_only c b s) ((beginBlack_only c a s).mono (by decide))

theorem boundaryGoes_only (old : State) (f : Bool) (s : State) : Only boundaryParts s (boundaryGoes old f s) := by
  have h := boundaryReported_only old s
  unfold boundaryGoes
  dsimp only
  split
  · exact (h.trans (formPace_only _)).mono (by decide)
  · exact ((((h.trans (boundaryStaged_only old f _ _)).trans (boundaryCarries_only _ _ _ _)).trans
      (fireCues_only _ _ _ _)).trans (formPace_only _)).mono (by decide)

theorem boundaryActs_only (s : State) : Only boundaryParts s (boundaryActs s) := by
  have h := (handleBoundary_only s).mono (qs := boundaryParts) (by decide)
  unfold boundaryActs
  dsimp only
  split
  · exact h.comp (boundaryEnds_only _ _ _)
  · exact h.comp (boundaryGoes_only _ _ _)

/-- A unit boundary leaves the supplies, the booth clock, the cue table, the Management Unit and the queue of
commands alone. -/
theorem unitBoundaryTick_only (s : State) : Only boundaryParts s (unitBoundaryTick s) :=
  ((only_withSeq s _).mono (by decide)).comp (boundaryActs_only _)

/-! ### The media tick of an empty queue -/

/-- With the unit clock stopped or main power absent a tick changes nothing. -/
theorem idleTick_stopped {s : State} (h : boundaryDue s = false) : idleTick s = s := by simp [idleTick, h]

/-- A tick below the last of the unit raises the tick count by 1. -/
theorem idleTick_below {s : State} (hb : boundaryDue s = true) (h : s.seq.tickCount + 1 < s.seq.ticksPerUnit) :
    idleTick s = s.withSeq s.seq.ticked := by
  have hl : s.seq.atLastTick = false := by simp [Sequencer.atLastTick]; omega
  simp [idleTick, unitClockTick, hb, hl]

/-- The tick that reaches the ticks per unit is the unit boundary. -/
theorem idleTick_last {s : State} (hb : boundaryDue s = true) (h : s.seq.ticksPerUnit ≤ s.seq.tickCount + 1) :
    idleTick s = unitBoundaryTick s := by
  have hl : s.seq.atLastTick = true := by simp [Sequencer.atLastTick]; omega
  simp [idleTick, unitClockTick, hb, hl]

/-- A tick changes what a unit boundary can change. -/
theorem idleTick_only (s : State) : Only boundaryParts s (idleTick s) :=
  Only.ite _ (Only.ite _ (unitBoundaryTick_only s) ((only_withSeq s _).mono (by decide))) (Only.refl _ s)

/-! ### Requests, return cells, starts -/

theorem answered_only (r : Request) (a : Answer) : Only [.mgmt] a.after (answered r a) := only_withMgmt a.after _

/-- A request's whole change: what its block changes, and the Management Unit. -/
theorem perform_only {ps : List Part} (is : Request → Bool) (f : List Byte → State → Answer) (s : State)
    (h : ∀ p, Only ps s (f p s).after) : Only (ps ++ [.mgmt]) s (perform is f s) := by
  unfold perform
  split
  · exact (h _).trans (answered_only _ _)
  · exact Only.refl _ s

/-- The length check adds no change. -/
theorem sized_only {ps : List Part} (n : Nat) (f : List Byte → State → Answer) (s : State)
    (h : ∀ p, Only ps s (f p s).after) (p : List Byte) : Only ps s (sized n f p s).after := by
  unfold sized
  split
  · exact h p
  · exact Only.refl _ s

theorem sendNext_only (s : State) : Only [.lane, .mgmt, .reports] s (sendNext s) := by
  unfold sendNext
  split
  · exact (only_withLane s _).mono (by decide)
  · exact ((only_withMgmt s _).trans (only_withLane _ _)).mono (by decide)
  · exact ((only_withReports s _).trans (only_withLane _ _)).mono (by decide)
  · exact Only.refl _ s

theorem cueAccepted_only (l : List Nat) (p : Nat) (s : State) :
    Only [.licences, .recorder, .seq, .reports, .track, .engine, .link, .text, .sound, .picture, .lane] s
      (cueAccepted l p s) :=
  ((((((((((openShowing_only _ s).trans (only_withLicences _ _)).trans (enterSegment_only l p _)).trans
    (only_withSeq _ _)).trans (only_withSound _ _)).trans (only_withPicture _ _)).trans
      (only_withPicture _ _)).trans (raise_only _ _ _ _)).trans (formPace_only _))).mono (by decide)

/-- A request answered is the reply's addition to what the request's block answered. -/
theorem answered_eq (r : Request) (a : Answer) : answered r a = replied r a.outcome a.data a.after := rfl

/-- A request at the head that may be performed is performed. -/
theorem perform_head {s : State} {kind : Nat} {r : Request} {rest : List Request} (h : HeadIs s kind r rest)
    (is : Request → Bool) (hi : is r = true) (f : List Byte → State → Answer) :
    perform is f s = answered r (f r.params s) := by
  have e : headRequest is s = some r := by
    have hr := h.room
    simp [headRequest, h.queue, powered, h.power, hi, hr]
  simp [perform, e]

/-- The same for a kind code and a length. -/
theorem performs_head {s : State} {kind : Nat} {r : Request} {rest : List Request} (h : HeadIs s kind r rest) (n : Nat)
    (hn : r.params.length = n) (f : List Byte → State → Answer) :
    performs kind (sized n f) s = .next (answered r (f r.params s)) := by
  have hk : ofKind kind r = true := by simp [ofKind, h.isKind]
  simp only [performs, perform_head h _ hk]
  simp [sized, hn]

/-- Without a head to perform, a request command changes nothing. -/
theorem perform_waits {is : Request → Bool} {f : List Byte → State → Answer} {s : State}
    (h : headRequest is s = none) : perform is f s = s := by
  simp [perform, h]

end Sys2Proof.Machine
end

