-- ==== Sys2Proof/Laws/Ring.lean ====
section
/-! SUPPORT. Banks and delay rings: a place read after a write, and the one canonical form of a delay ring kept. -/

namespace Sys2Proof.Machine

/-! ### Banks -/

theorem bankGet_set_same {α : Type} [Inhabited α] {n : Nat} (v : Vector α n) (i : Nat) (x : α) (h : i < n) :
    bankGet (bankSet v i x) i = x := by
  simp [bankGet, bankSet, h]

theorem bankGet_set_other {α : Type} [Inhabited α] {n : Nat} (v : Vector α n) (i j : Nat) (x : α) (h : i ≠ j) :
    bankGet (bankSet v i x) j = bankGet v j := by
  simp [bankGet, bankSet, h]

/-- A write past a bank's end changes nothing. -/
theorem bankSet_past {α : Type} {n : Nat} (v : Vector α n) (i : Nat) (x : α) (h : n ≤ i) : bankSet v i x = v := by
  ext j hj
  have : i ≠ j := by omega
  simp [bankSet, this]

theorem bankGet_map {α β : Type} [Inhabited α] [Inhabited β] {n : Nat} (f : α → β) (v : Vector α n) (i : Nat)
    (h : i < n) : bankGet (bankMap f v) i = f (bankGet v i) := by
  simp [bankGet, bankMap, h]

theorem bankGet_of {α : Type} [Inhabited α] (n : Nat) (f : Nat → α) (i : Nat) (h : i < n) :
    bankGet (bankOf n f) i = f i := by
  simp [bankGet, bankOf, h]

theorem mem_bankSet {α : Type} {n : Nat} {v : Vector α n} {i : Nat} {x y : α} (h : y ∈ (bankSet v i x).toList) :
    y = x ∨ y ∈ v.toList := by
  simp only [Vector.mem_toList_iff, bankSet] at h ⊢
  rw [Vector.mem_iff_getElem] at h
  obtain ⟨j, hj, e⟩ := h
  rw [Vector.getElem_setIfInBounds] at e
  split at e
  · exact .inl e.symm
  · exact .inr (e ▸ Vector.getElem_mem hj)

theorem mem_bankMap {α β : Type} {n : Nat} {f : α → β} {v : Vector α n} {y : β} :
    y ∈ (bankMap f v).toList ↔ ∃ x ∈ v.toList, f x = y := by
  simp [bankMap, Vector.toList]

theorem bankGet_mem {α : Type} [Inhabited α] {n : Nat} (v : Vector α n) (i : Nat) (h : i < n) :
    bankGet v i ∈ v.toList := by
  simp [bankGet, h]

theorem bankSet_get_self {α : Type} [Inhabited α] {n : Nat} (v : Vector α n) (i : Nat) :
    bankSet v i (bankGet v i) = v := by
  ext j hj
  by_cases h : i = j
  · subst h
    simp [bankSet, bankGet, hj]
  · simp [bankSet, h]

/-! ### Delay rings -/

theorem ringGet_below : ∀ (r : DelayRing) (lo i : Nat), ringWfFrom lo r = true → i < lo → ringGet r i = 0
  | [], _, _, _, _ => rfl
  | (j, x) :: r, lo, i, h, hi => by
    simp [ringWfFrom] at h
    have h1 : i < j := by omega
    simp [ringGet, h1, Nat.ne_of_lt h1]

/-- A sample read after a write to the same place is the sample written. -/
theorem ringGet_set_same : ∀ (r : DelayRing) (lo i : Nat) (y : Int), ringWfFrom lo r = true → ringGet (ringSet r i y) i = y
  | [], _, i, y, _ => by
    by_cases h : y = 0 <;> simp [ringSet, ringGet, h]
  | (j, x) :: r, lo, i, y, h => by
    simp [ringWfFrom] at h
    by_cases h1 : i < j
    · by_cases h2 : y = 0
      · simp [ringSet, ringGet, h1, h2, Nat.ne_of_lt h1]
      · simp [ringSet, ringGet, h1, h2]
    · by_cases h3 : i = j
      · by_cases h2 : y = 0
        · simp only [ringSet, h3, if_true, h2]
          simpa using ringGet_below r (j + 1) j h.2 (by omega)
        · simp [ringSet, ringGet, h3, h2]
      · have ih := ringGet_set_same r (j + 1) i y h.2
        simp [ringSet, ringGet, h1, h3, ih]

/-- A write leaves every other place of a ring alone. -/
theorem ringGet_set_other : ∀ (r : DelayRing) (lo i k : Nat) (y : Int), ringWfFrom lo r = true → k ≠ i →
    ringGet (ringSet r i y) k = ringGet r k
  | [], _, i, k, y, _, hk => by
    by_cases h : y = 0 <;> simp [ringSet, ringGet, h, hk]
  | (j, x) :: r, lo, i, k, y, h, hk => by
    simp [ringWfFrom] at h
    by_cases h1 : i < j
    · by_cases h2 : y = 0
      · simp [ringSet, h1, h2]
      · simp only [ringSet, h1, if_true, h2, if_false, ringGet, hk]
        by_cases h4 : k < i
        · have : k ≠ j ∧ k < j := by omega
          simp [h4, this.1, this.2]
        · simp [h4]
    · by_cases h3 : i = j
      · subst h3
        by_cases h2 : y = 0
        · simp only [ringSet, Nat.lt_irrefl, if_false, if_true, h2, ringGet, hk]
          by_cases h4 : k < i
          · simpa [h4] using ringGet_below r (i + 1) k h.2 (by omega)
          · simp [h4]
        · simp [ringSet, ringGet, h2, hk]
      · have ih := ringGet_set_other r (j + 1) i k y h.2 hk
        simp only [ringSet, h1, if_false, h3, ringGet, ih]

/-- Every sample of a ring in its canonical form is a signed 24-bit value. -/
theorem ringWfFrom_set : ∀ (r : DelayRing) (lo i : Nat) (y : Int), ringWfFrom lo r = true → lo ≤ i →
    i < Config.ringLength → -8388608 ≤ y → y ≤ 8388607 → ringWfFrom lo (ringSet r i y) = true
  | [], lo, i, y, _, h1, h2, h3, h4 => by
    by_cases h : y = 0 <;> simp [ringSet, ringWfFrom, h, h1, h2, h3, h4]
  | (j, x) :: r, lo, i, y, h, h1, h2, h3, h4 => by
    have h' := h
    simp [ringWfFrom] at h'
    by_cases a : i < j
    · by_cases b : y = 0
      · simpa [ringSet, a, b] using h
      · simp only [ringSet, a, if_true, b, if_false, ringWfFrom]
        simp [h1, h2, h3, h4, b, h']
        omega
    · by_cases c : i = j
      · subst c
        by_cases b : y = 0
        · simp only [ringSet, Nat.lt_irrefl, if_false, if_true, b]
          have : ∀ (q : DelayRing) (m n : Nat), ringWfFrom m q = true → n ≤ m → ringWfFrom n q = true := by
            intro q m n hq hn
            cases q with
            | nil => rfl
            | cons p q => simp [ringWfFrom] at hq ⊢; exact ⟨⟨⟨⟨⟨by omega, hq.1.1.1.1.2⟩, hq.1.1.1.2⟩, hq.1.1.2⟩, hq.1.2⟩, hq.2⟩
          exact this r (i + 1) lo h'.2 (by omega)
        · simp [ringSet, b, ringWfFrom, h1, h2, h3, h4, h']
      · have ih := ringWfFrom_set r (j + 1) i y h'.2 (by omega) h2 h3 h4
        simp only [ringSet, a, if_false, c, ringWfFrom, ih]
        simp [h']

/-- A sample written to a ring keeps its canonical form. -/
theorem ringSet_wf {r : DelayRing} (h : ringWf r = true) (i : Nat) (y : Int) (hi : i < Config.ringLength)
    (h1 : -8388608 ≤ y) (h2 : y ≤ 8388607) : ringWf (ringSet r i y) = true :=
  ringWfFrom_set r 0 i y h (Nat.zero_le i) hi h1 h2

/-- The clamp leaves a signed 24-bit value (R114). -/
theorem clamp24_range (d : Int) : -8388608 ≤ clamp24 d ∧ clamp24 d ≤ 8388607 := by
  unfold clamp24 sampleMin sampleMax
  split
  · omega
  · split <;> omega

/-- The delay rings of the reset state are in their canonical form. -/
theorem reset_rings_wf : ∀ r ∈ State.reset.sound.rings.toList, ringWf r = true := by
  intro r hr
  have : r = [] := by simpa [State.reset, State.coldSound] using hr
  subst this
  rfl

end Sys2Proof.Machine
end

