-- ==== Sys2Proof/Laws/Blocks.lean ====
section
/-! SUPPORT. What the shared operations of the blocks do to the fields they act on: walks over a bank, releases and
lapses, the close of a showing, held inputs and input actions, the lane and the sequence check. -/

namespace Sys2Proof.Machine

/-! ### Walks -/

/-- A property of the state carried along a walk over the numbers below n. -/
theorem walk_induct {f : State → Nat → State} (P : Nat → State → Prop) {s : State} (h0 : P 0 s) (n : Nat)
    (hs : ∀ k t, k < n → P k t → P (k + 1) (f t k)) : P n ((List.range n).foldl f s) := by
  have go : ∀ m, m ≤ n → P m ((List.range m).foldl f s) := by
    intro m
    induction m with
    | zero => intro _; exact h0
    | succ m ih =>
      intro hm
      rw [List.range_succ, List.foldl_append]
      exact hs _ _ (by omega) (ih (by omega))
  exact go n (Nat.le_refl n)

/-- A walk whose every step changes nothing changes nothing. -/
theorem walk_same {f : State → Nat → State} {s : State} (n : Nat) (h : ∀ k, k < n → f s k = s) :
    (List.range n).foldl f s = s :=
  walk_induct (fun _ t => t = s) rfl n (fun k t hk ht => by subst ht; exact h k hk)

/-! ### Reports touch no other block -/

theorem raiseIf_recorder (c : Bool) (k : ReportKind) (a b : Nat) (s : State) :
    (raiseIf c k a b s).recorder = s.recorder := by
  unfold raiseIf
  split <;> rfl

theorem raiseIf_licences (c : Bool) (k : ReportKind) (a b : Nat) (s : State) :
    (raiseIf c k a b s).licences = s.licences := by
  unfold raiseIf
  split <;> rfl

theorem raiseIf_clock (c : Bool) (k : ReportKind) (a b : Nat) (s : State) : (raiseIf c k a b s).clock = s.clock := by
  unfold raiseIf
  split <;> rfl

/-! ### Licences -/

/-- A release of one slot leaves the booth clock and every other slot alone, and the slot not BOUND. -/
theorem releaseSlot_slots (s : State) (k : Nat) (hk : k < 64) :
    (releaseSlot s k).clock = s.clock ∧ (∀ j, j ≠ k → bankGet (releaseSlot s k).licences j = bankGet s.licences j) ∧
      (bankGet (releaseSlot s k).licences k).state ≠ .bound := by
  unfold releaseSlot
  dsimp only
  split
  · rw [raiseIf_licences, raiseIf_clock]
    refine ⟨rfl, fun j hj => bankGet_set_other _ _ _ _ (Ne.symm hj), ?_⟩
    show Licence.state (bankGet (bankSet _ _ _) _) ≠ _
    rw [bankGet_set_same _ _ _ hk]
    simp only [Licence.changed, releasedState]
    split
    · decide
    · split <;> decide
  · rename_i h
    exact ⟨rfl, fun _ _ => rfl, h⟩

/-- A lapse of one slot leaves the booth clock and every other slot alone. -/
theorem lapseSlot_slots (s : State) (k : Nat) :
    (lapseSlot s k).clock = s.clock ∧
      (∀ j, j ≠ k → bankGet (lapseSlot s k).licences j = bankGet s.licences j) := by
  unfold lapseSlot
  dsimp only
  split
  · exact ⟨rfl, fun j hj => bankGet_set_other _ _ _ _ (Ne.symm hj)⟩
  · exact ⟨rfl, fun _ _ => rfl⟩

/-- After a release no entry is BOUND. -/
theorem releaseAll_unbound (s : State) : ∀ x ∈ (releaseAll s).licences.toList, x.state ≠ .bound := by
  have h : ∀ j, j < 64 → (bankGet (releaseAll s).licences j).state ≠ .bound :=
    walk_induct (f := releaseSlot) (fun k t => ∀ j, j < k → (bankGet t.licences j).state ≠ .bound)
      (fun j hj => absurd hj (Nat.not_lt_zero j)) 64 (fun k t hk ht j hj => by
        obtain ⟨-, a, b⟩ := releaseSlot_slots t k hk
        by_cases e : j = k
        · rw [e]
          exact b
        · rw [a j e]
          exact ht j (by omega))
  intro x hx
  rw [Vector.mem_toList_iff, Vector.mem_iff_getElem] at hx
  obtain ⟨i, hi, rfl⟩ := hx
  have e2 : bankGet (releaseAll s).licences i = (releaseAll s).licences[i] := by simp [bankGet, hi]
  exact e2 ▸ h i hi

/-! ### The showing recorder -/

/-- An append to the log leaves the current record, its status and the next showing number alone. -/
theorem appendLog_record (x : LogRecord) (s : State) :
    (appendLog x s).recorder.status = s.recorder.status ∧ (appendLog x s).recorder.record = s.recorder.record ∧
      (appendLog x s).recorder.nextNumber = s.recorder.nextNumber := by
  have room : ∀ r : Recorder,
      r.madeRoom.status = r.status ∧ r.madeRoom.record = r.record ∧ r.madeRoom.nextNumber = r.nextNumber := by
    intro r
    unfold Recorder.madeRoom
    split <;> exact ⟨rfl, rfl, rfl⟩
  unfold appendLog
  dsimp only
  rw [raiseIf_recorder, raiseIf_recorder]
  split <;> exact room _

/-- The close of an OPEN record (R165). -/
theorem closeShowing_opened (c : EndCause) (n : Nat) (s : State) (h : s.recorder.status = .opened) :
    (closeShowing c n s).recorder.status = .closed ∧ (closeShowing c n s).recorder.record.endCause = some c ∧
      (closeShowing c n s).recorder.record.number = s.recorder.record.number ∧
      (closeShowing c n s).recorder.nextNumber = s.recorder.nextNumber := by
  let r := closedRecord s.showList c n (boothNow s) s.recorder.record
  let t := s.withRecorder { s.recorder with status := .closed, record := r }
  obtain ⟨x, y, z⟩ := appendLog_record (condense r c) t
  have e : (closeShowing c n s).recorder = (appendLog (condense r c) t).recorder := by
    have g : ∀ (k : ReportKind) (l a b : Nat) (u : State), (raiseAs k l a b u).recorder = u.recorder :=
      fun _ _ _ _ _ => rfl
    exact (congrArg State.recorder (if_pos h)).trans (g _ _ _ _ _)
  have f := (congrArg Recorder.record e).trans y
  exact ⟨(congrArg Recorder.status e).trans x, (congrArg ShowRecord.endCause f).trans rfl,
    (congrArg ShowRecord.number f).trans rfl, (congrArg Recorder.nextNumber e).trans z⟩

/-- A record that is not OPEN is not closed. -/
theorem closeShowing_not_opened (c : EndCause) (n : Nat) (s : State) (h : s.recorder.status ≠ .opened) :
    closeShowing c n s = s := by
  unfold closeShowing
  rw [if_neg h]

/-! ### Held inputs and controls -/

/-- The limit test can only make the timeout pending (R21). -/
theorem testLimit_keeps (q : Sequencer) :
    q.testLimit = { q with pend := { q.pend with timeout := q.testLimit.pend.timeout } } := by
  unfold Sequencer.testLimit
  split <;> rfl

theorem joined_held (i m : Nat) (hm : m < 8) (q : Sequencer) :
    (q.joined i).held.getLsbD m = (decide (m = i) || q.held.getLsbD m) := by
  simp only [Sequencer.joined, BitVec.getLsbD_or, BitVec.getLsbD_shiftLeft]
  by_cases h : m = i
  · subst h
    simp [hm]
  · by_cases h2 : m - i = 0 <;> simp [h, h2, hm]
    intro _
    omega

/-- An input that joins the held inputs set is in it, and the others stand. -/
theorem joinHeld_held (i m : Nat) (hm : m < 8) (s : State) :
    inHeld m (joinHeld i s) = (decide (m = i) || inHeld m s) := by
  unfold joinHeld inHeld
  split
  · show (Sequencer.testLimit _).held.getLsbD m = _
    rw [testLimit_keeps]
    exact joined_held i m hm _
  · exact joined_held i m hm _

/-- An input that leaves the held inputs set is not in it, and the others stand. -/
theorem leaveHeld_held (i m : Nat) (hm : m < 8) (s : State) :
    inHeld m (leaveHeld i s) = (inHeld m s && !decide (m = i)) := by
  simp only [leaveHeld, inHeld, State.withSeq_seq, BitVec.getLsbD_and, BitVec.getLsbD_not, BitVec.getLsbD_shiftLeft]
  by_cases h : m = i
  · subst h
    simp [hm]
  · by_cases h2 : m - i = 0 <;> simp [h, h2, hm]
    intro _
    omega

/-- A join clears a pending go and resume and changes only the held inputs set and the pending controls (R17). -/
theorem joinHeld_seq (i : Nat) (s : State) :
    (joinHeld i s).seq.pend.go = false ∧ (joinHeld i s).seq.pend.resume = false ∧
      (joinHeld i s).seq.pend.stop = s.seq.pend.stop ∧ (joinHeld i s).seq.pend.pause = s.seq.pend.pause ∧
      (joinHeld i s).seq.state = s.seq.state ∧ (joinHeld i s).seq.seg = s.seq.seg ∧
      (joinHeld i s).seq.offset = s.seq.offset ∧ (joinHeld i s).lines = s.lines := by
  unfold joinHeld
  split
  · have e := testLimit_keeps (s.seq.joined i)
    generalize Sequencer.testLimit (s.seq.joined i) = q at e ⊢
    simp only [State.withSeq_seq]
    rw [e]
    repeat' constructor
  · repeat' constructor

/-- A control action of an input changes the Sequencer as its control does (R150). -/
theorem controlAction_seq (d : Nat) (x : ReplyOutcome × State) : (controlAction d x).seq = x.2.seq := by
  unfold controlAction
  split <;> rfl

/-! ### The lane -/

/-- A valid cell brings the lane UP and restarts the lane timer (R42). -/
theorem laneValid_link (s : State) :
    (laneValid s).link.laneTimer = 0 ∧ (laneValid s).link.laneUp = true ∧
      (laneValid s).link.counters = s.link.counters := by
  unfold laneValid takeLaneDown
  dsimp only
  split <;> split <;> exact ⟨rfl, rfl, rfl⟩

/-- A cell of the expected number moves the expected number on and damages nothing (R44). -/
theorem sequenceCheck_expected (slot n : Nat) (s : State) (h : (bankGet s.track.slots slot).expected = some n) :
    sequenceCheck slot n s = s.withTrack { s.track with
      slots := bankSet s.track.slots slot
        { bankGet s.track.slots slot with expected := some ((n + 1) % 65536) } } := by
  simp [sequenceCheck, h]

end Sys2Proof.Machine
end

