-- ==== Sys2Proof/WellFormed.lean ====
section
/-! DEFINITION. What a command must be to be one the surroundings of the part can send. -/

namespace Sys2Proof

/-- The lane delivers a payload of 0-1,024 bytes with a cell (R40). -/
def Cell.deliverable (c : Cell) : Bool := c.payload.length ≤ 1024

/-- The kind byte of a cell's header (R57). -/
def Cell.kindByte (c : Cell) : Nat := c.header[1].toNat

/-- A cell command carries a deliverable cell, and the row's own kind in the header where the row names one
(R40, R57); the lines are 0-7 (R142, R148). -/
def Instr.wellFormed : Instr → Bool
  | .fill c => c.deliverable && c.kindByte == 0
  | .essence c => c.deliverable && c.kindByte == 1
  | .resource c => c.deliverable && c.kindByte == 2
  | .manage c => c.deliverable && c.kindByte == 3
  | .invalidCell c => c.deliverable
  | .spanEnd line => line < 8
  | .inputEdge input => input < 8
  | .lineMillisecond _
  | .badKind | .readStatus | .setClock | .loadKey | .eraseKey | .readKey | .writeEntry | .readEntry
  | .clearList | .writeCue | .readCue | .writeProfile | .readProfile | .writeFaderLaw | .setFader | .setMute
  | .configureOutputLine | .configureInputLine | .lineActionSet | .lineActionClear | .lineActionToggle
  | .lineActionTrigger | .lineActionStop | .readLine | .readCapture | .cueShow | .go | .pause | .resume
  | .stop | .setFlags | .setLimits | .readShowing | .readLog | .markCollected | .setReportMask | .reset
  | .unitBoundary | .leadEnd | .starved | .sampleInstant | .byteTime | .dividerStep | .pauseTimeout
  | .boothSecond | .laneDown | .unpackingEngineTake | .unpackComplete | .unpackAbandon | .cellSendStart
  | .cellSendEnd | .coldStart | .warmStart | .mainPowerLoss | .backupSupplyLoss => true

end Sys2Proof
end

