-- ==== Sys2Proof/Laws/PerInstr.lean ====
section
/-! SUPPORT. Statements made for every command, one lemma per constructor. Deliverable: a well-formed command carries
only a cell the inbound lane delivers (R40). -/

namespace Sys2Proof.Laws.Deliverable

/-- The cell a command carries. -/
def carried : Instr → Option Cell
  | .fill x => some x
  | .essence x => some x
  | .resource x => some x
  | .manage x => some x
  | .invalidCell x => some x
  | .badKind | .readStatus | .setClock | .loadKey | .eraseKey | .readKey | .writeEntry | .readEntry | .clearList
  | .writeCue | .readCue | .writeProfile | .readProfile | .writeFaderLaw | .setFader | .setMute
  | .configureOutputLine | .configureInputLine | .lineActionSet | .lineActionClear | .lineActionToggle
  | .lineActionTrigger | .lineActionStop | .readLine | .readCapture | .cueShow | .go | .pause | .resume | .stop
  | .setFlags | .setLimits | .readShowing | .readLog | .markCollected | .setReportMask | .reset | .unitBoundary
  | .leadEnd | .starved | .sampleInstant | .byteTime | .dividerStep | .pauseTimeout | .boothSecond | .laneDown
  | .lineMillisecond _ | .spanEnd _ | .inputEdge _ | .unpackingEngineTake | .unpackComplete | .unpackAbandon
  | .cellSendStart | .cellSendEnd | .coldStart | .warmStart | .mainPowerLoss | .backupSupplyLoss => none

/-- A well-formed command that carries a cell carries one of at most 1,024 payload bytes (R40). -/
def Statement (i : Instr) : Prop := ∀ c, carried i = some c → i.wellFormed = true → c.payload.length ≤ 1024

theorem fill (x : Cell) : Statement (.fill x) := by
  intro c e h
  cases e
  simp only [Instr.wellFormed, Cell.deliverable, Bool.and_eq_true, decide_eq_true_eq] at h
  exact h.1
theorem essence (x : Cell) : Statement (.essence x) := by
  intro c e h
  cases e
  simp only [Instr.wellFormed, Cell.deliverable, Bool.and_eq_true, decide_eq_true_eq] at h
  exact h.1
theorem resource (x : Cell) : Statement (.resource x) := by
  intro c e h
  cases e
  simp only [Instr.wellFormed, Cell.deliverable, Bool.and_eq_true, decide_eq_true_eq] at h
  exact h.1
theorem manage (x : Cell) : Statement (.manage x) := by
  intro c e h
  cases e
  simp only [Instr.wellFormed, Cell.deliverable, Bool.and_eq_true, decide_eq_true_eq] at h
  exact h.1
theorem badKind : Statement .badKind := fun _ e => nomatch e
theorem readStatus : Statement .readStatus := fun _ e => nomatch e
theorem setClock : Statement .setClock := fun _ e => nomatch e
theorem loadKey : Statement .loadKey := fun _ e => nomatch e
theorem eraseKey : Statement .eraseKey := fun _ e => nomatch e
theorem readKey : Statement .readKey := fun _ e => nomatch e
theorem writeEntry : Statement .writeEntry := fun _ e => nomatch e
theorem readEntry : Statement .readEntry := fun _ e => nomatch e
theorem clearList : Statement .clearList := fun _ e => nomatch e
theorem writeCue : Statement .writeCue := fun _ e => nomatch e
theorem readCue : Statement .readCue := fun _ e => nomatch e
theorem writeProfile : Statement .writeProfile := fun _ e => nomatch e
theorem readProfile : Statement .readProfile := fun _ e => nomatch e
theorem writeFaderLaw : Statement .writeFaderLaw := fun _ e => nomatch e
theorem setFader : Statement .setFader := fun _ e => nomatch e
theorem setMute : Statement .setMute := fun _ e => nomatch e
theorem configureOutputLine : Statement .configureOutputLine := fun _ e => nomatch e
theorem configureInputLine : Statement .configureInputLine := fun _ e => nomatch e
theorem lineActionSet : Statement .lineActionSet := fun _ e => nomatch e
theorem lineActionClear : Statement .lineActionClear := fun _ e => nomatch e
theorem lineActionToggle : Statement .lineActionToggle := fun _ e => nomatch e
theorem lineActionTrigger : Statement .lineActionTrigger := fun _ e => nomatch e
theorem lineActionStop : Statement .lineActionStop := fun _ e => nomatch e
theorem readLine : Statement .readLine := fun _ e => nomatch e
theorem readCapture : Statement .readCapture := fun _ e => nomatch e
theorem cueShow : Statement .cueShow := fun _ e => nomatch e
theorem go : Statement .go := fun _ e => nomatch e
theorem pause : Statement .pause := fun _ e => nomatch e
theorem resume : Statement .resume := fun _ e => nomatch e
theorem stop : Statement .stop := fun _ e => nomatch e
theorem setFlags : Statement .setFlags := fun _ e => nomatch e
theorem setLimits : Statement .setLimits := fun _ e => nomatch e
theorem readShowing : Statement .readShowing := fun _ e => nomatch e
theorem readLog : Statement .readLog := fun _ e => nomatch e
theorem markCollected : Statement .markCollected := fun _ e => nomatch e
theorem setReportMask : Statement .setReportMask := fun _ e => nomatch e
theorem reset : Statement .reset := fun _ e => nomatch e
theorem unitBoundary : Statement .unitBoundary := fun _ e => nomatch e
theorem leadEnd : Statement .leadEnd := fun _ e => nomatch e
theorem starved : Statement .starved := fun _ e => nomatch e
theorem sampleInstant : Statement .sampleInstant := fun _ e => nomatch e
theorem byteTime : Statement .byteTime := fun _ e => nomatch e
theorem dividerStep : Statement .dividerStep := fun _ e => nomatch e
theorem pauseTimeout : Statement .pauseTimeout := fun _ e => nomatch e
theorem boothSecond : Statement .boothSecond := fun _ e => nomatch e
theorem laneDown : Statement .laneDown := fun _ e => nomatch e
theorem lineMillisecond (pins : Mask8) : Statement (.lineMillisecond pins) := fun _ e => nomatch e
theorem spanEnd (line : Nat) : Statement (.spanEnd line) := fun _ e => nomatch e
theorem inputEdge (input : Nat) : Statement (.inputEdge input) := fun _ e => nomatch e
theorem unpackingEngineTake : Statement .unpackingEngineTake := fun _ e => nomatch e
theorem unpackComplete : Statement .unpackComplete := fun _ e => nomatch e
theorem unpackAbandon : Statement .unpackAbandon := fun _ e => nomatch e
theorem cellSendStart : Statement .cellSendStart := fun _ e => nomatch e
theorem cellSendEnd : Statement .cellSendEnd := fun _ e => nomatch e
theorem coldStart : Statement .coldStart := fun _ e => nomatch e
theorem warmStart : Statement .warmStart := fun _ e => nomatch e
theorem mainPowerLoss : Statement .mainPowerLoss := fun _ e => nomatch e
theorem invalidCell (x : Cell) : Statement (.invalidCell x) := by
  intro c e h
  cases e
  simpa [Instr.wellFormed, Cell.deliverable] using h
theorem backupSupplyLoss : Statement .backupSupplyLoss := fun _ e => nomatch e

end Sys2Proof.Laws.Deliverable
end

