-- ==== Sys2Proof/Laws/Selection.lean ====
section
/-! SUPPORT. What a selection skips (R10), that it leaves no resource of a skipped entry in the text store (R123), for which
principals an alternate-only entry is expected (R47 step 3), and that no unit or resource of a passed entry is accepted afterwards (R47, R51). -/

namespace Sys2Proof.Machine

/-- The entry selected is one of those looked at (R10). -/
theorem selectFrom_mem {l : Vector Entry 128} {flags : Mask8} {p : Nat} {js : List Nat}
    (h : (selectFrom l flags js).2 = some p) : p ∈ js := by
  induction js with
  | nil => cases h
  | cons j js ih =>
    simp only [selectFrom] at h
    split at h
    · exact .tail _ (ih h)
    · split at h
      · cases h; exact .head _
      · exact .tail _ (ih h)

/-- An entry that a selection skips is not alternate-only and stands before the entry selected (R10). -/
theorem selectFrom_skipped {l : Vector Entry 128} {flags : Mask8} {p i : Nat} {js : List Nat}
    (hs : js.Pairwise (· < ·)) (h : (selectFrom l flags js).2 = some p) (hi : i ∈ (selectFrom l flags js).1) :
    (bankGet l i).altOnly = false ∧ i < p := by
  induction js with
  | nil => cases h
  | cons j js ih =>
    simp only [selectFrom] at h hi
    split at h
    · rename_i ha
      rw [if_pos ha] at hi
      exact ih hs.of_cons h hi
    · rename_i ha
      rw [if_neg ha] at hi
      split at h
      · rename_i hc
        rw [if_pos hc] at hi
        cases hi
      · rename_i hc
        rw [if_neg hc] at hi
        rcases List.mem_cons.1 hi with rfl | hi
        · exact ⟨by simpa using ha, List.rel_of_pairwise_cons hs (selectFrom_mem h)⟩
        · exact ih hs.of_cons h hi

theorem selectAt_skipped {l : Vector Entry 128} {flags : Mask8} {start p i : Nat}
    (h : (selectAt l flags start).2 = some p) (hi : i ∈ (selectAt l flags start).1) :
    (bankGet l i).altOnly = false ∧ i < p :=
  selectFrom_skipped (List.pairwise_lt_range.drop) h hi

/-- The resources that stay in the store are those not freed (R123). -/
theorem freeResources_store (gone : Resource → Bool) (s : State) :
    (freeResources gone s).text.store = s.text.store.filter (fun r => !gone r) := by
  have mark : ∀ (f : UnpackJob → Bool) (n : Nat) (u : State), (markAbandoned f n u).text = u.text := by
    intro f n u
    unfold markAbandoned
    split
    · split <;> rfl
    · rfl
  have skip : ∀ (b : Bool) (slot : Nat) (u : State), (if b then setAssembly slot .skipping u else u).text = u.text := by
    intro b slot u
    cases b <;> rfl
  unfold freeResources
  dsimp only
  rw [mark, skip, skip]
  rfl

/-- A selection leaves no resource of an entry it skipped, whatever the entries written during the show name (R10,
R123). -/
theorem textSelection_skipped {s : State} {flags : Mask8} {start p i : Nat}
    (h : (selectAt s.showList flags start).2 = some p) (hi : i ∈ (selectAt s.showList flags start).1) (u : State) (hu : u.showList = s.showList) :
    ∀ r ∈ (textSelection (contextFor s p) u).text.store, r.seg ≠ i := by
  intro r hr he
  obtain ⟨ha, hlt⟩ := selectAt_skipped h hi
  have hplayed : i ≠ (contextFor s p).played := by
    simp only [contextFor, playedMember]
    split
    · exact Nat.ne_of_lt hlt
    · rename_i a hv
      split
      · intro hia
        subst hia
        revert hv
        unfold validAlternate
        dsimp only
        split
        · simp
        · rename_i b _
          split
          · intro hb; cases hb; simp_all
          · simp
      · exact Nat.ne_of_lt hlt
  have hrank : playRank s.showList i = i := by simp [playRank, ha]
  rw [textSelection, freeResources_store, List.mem_filter] at hr
  have hk := hr.2
  simp only [he, hu, Context.passes, hrank, Bool.not_eq_true', Bool.or_eq_false_iff, Bool.and_eq_false_iff] at hk
  obtain ⟨-, hk | ⟨hk, -⟩⟩ := hk
  · simp at hk; exact hplayed hk
  · simp at hk
    exact absurd hlt (by have : (contextFor s p).principal = p := rfl; omega)

/-- An alternate-only entry other than the member played is expected only for a principal after the current one, of which
it is the due and valid partner (R47 step 3). -/
theorem expectedMember_later {s : State} {c : Context} {i : Nat} (hc : s.seq.ctx = some c) (hi : i ≠ c.played)
    (ha : (bankGet s.showList i).altOnly = true) (h : expectedMember s i = true) :
    ∃ p, c.principal < p ∧ validAlternate s.showList p = some i ∧ (bankGet s.showList p).dueAlternate = true := by
  simp only [expectedMember, hc, if_neg (Ne.symm hi), ha, if_true, List.any_eq_true, Bool.and_eq_true,
    decide_eq_true_eq, beq_iff_eq] at h
  obtain ⟨p, -, ⟨hp, hv⟩, hd⟩ := h
  exact ⟨p, hp, hv, hd⟩

/-- A unit of an entry the Sequencer has passed is LATE on arrival (R47 step 2). -/
theorem arrivalLate_passed {s : State} {c : Context} {a : Nat × Place} (slot : Nat) (hc : s.seq.ctx = some c)
    (hs : s.seq.state ≠ .idle) (hp : c.passes s.showList a.1 = true) : arrivalLate s slot a = true := by
  have hi : isPassed s a.1 = true := by simp [isPassed, hc, hp]
  obtain ⟨d, hd⟩ : ∃ d, slotDue s.seq slot = some d := by
    simp only [slotDue, dueOf, hc]
    split
    · exact ⟨_, rfl⟩
    · split
      · contradiction
      · exact ⟨_, rfl⟩
      · exact ⟨_, rfl⟩
      · exact ⟨_, rfl⟩
      · split <;> exact ⟨_, rfl⟩
      · exact ⟨_, rfl⟩
  simp [arrivalLate, lateFor, hc, hd, hi]

/-- Nothing of a passed entry is accepted: its units and resources are NOT_CUED or LATE (R47, R51). -/
theorem passed_refused {s : State} {c : Context} (slot seg unit : Nat) (hc : s.seq.ctx = some c)
    (hp : c.passes s.showList seg = true) :
    (essenceCheck slot seg unit s = some .notCued ∨ essenceCheck slot seg unit s = some .late) ∧
      (resourceCheck slot seg s = some .notCued ∨ resourceCheck slot seg s = some .late) := by
  by_cases h : s.seq.state = .idle ∨ showLength s.showList ≤ seg
  · simp [essenceCheck, resourceCheck, h]
  · have ha := arrivalLate_passed (a := (seg, .unit unit)) slot hc (fun e => h (.inl e)) hp
    have hr : resourceLate s seg = true := by simp [resourceLate, hc, hp]
    simp [essenceCheck, resourceCheck, h, ha, hr]

end Sys2Proof.Machine
end

