-- ==== Sys2Proof/Tests/Slice0.lean ====
section
/-! SUPPORT. Tests of the model: each check of WellFormed with a term it refuses, the spec's worked examples, and for
each statement of Obligations.lean a state and operands that meet its hypotheses. Expected values are the spec's. -/

open Sys2Proof Sys2Proof.Machine

namespace Sys2Proof.Tests

set_option Elab.async false

/-! ### Helpers -/

/-- The state a command leaves. -/
def run (c : Instr) (s : State) : State :=
  match exec c s with
  | .next t => t
  | .fault f => nomatch f
  | .refused _ => s

/-- The part with one request queued. -/
def asked (k : Nat) (p : List Byte) (s : State) : State := s.withMgmt ⟨[⟨7, k, p⟩], [], 0⟩

/-- The reply of the last request performed: its outcome and data. -/
def replyOf (s : State) : Option (ReplyOutcome × List Byte) := s.mgmt.replies.getLast?.map (fun r => (r.outcome, r.data))

/-- A cell of a kind with its marks and slot byte. -/
def cellOf (kind mark seg sq unit : Nat) (p : List Byte) : Cell :=
  let h : List Byte := [1, BitVec.ofNat 8 kind, BitVec.ofNat 8 mark, BitVec.ofNat 8 seg] ++ be 2 sq ++ be 2 p.length ++ be 4 unit
  ⟨headerOf (h ++ be 2 (crc16 h).toNat), p⟩

/-- The characters 1 to 9 of the check values. -/
def digits : List Byte := [0x31, 0x32, 0x33, 0x34, 0x35, 0x36, 0x37, 0x38, 0x39]

/-- A plain segment of 10 units at 24 units/s. -/
def plain : Segment := { (Entry.emptied 0).toSegment with cls := .advert, duration := 10 }

/-- A segment context of entry 0. -/
def ctxOf (g : Segment) (leadUnits : Nat) : Context := ⟨0, 0, none, g, true, leadUnits, false⟩

/-- The part in a Sequencer state of segment g at an offset, from reset. -/
def inState (st : SeqState) (g : Segment) (offset : Nat) : State :=
  State.reset.withSeq { State.reset.seq with state := st, ctx := some (ctxOf g 1), offset := offset, clockRunning := true }

def playing : State := inState .playing plain 3

/-- A state with pending controls. -/
def pended (p : PendingControls) (s : State) : State := s.withSeq { s.seq with pend := p }

/-- The last lead unit. -/
def lastLead : State := (inState .lead plain 0).withSeq { (inState .lead plain 0).seq with leadRemaining := 1 }

/-- The part with a one-entry show. -/
def listed : State := State.reset.withShowList (bankSet State.reset.showList 0
  { Entry.emptied 0 with cls := .advert, duration := 10 })

/-- The part with output line n of a mode, activity and span. -/
def lined (n : Nat) (m : LineMode) (a : Activity) (span : Nat) : State := State.reset.withLines { State.reset.lines with
  outputs := bankSet State.reset.lines.outputs n
    { config := { OutConfig.default with mode := m, delay := 5, width := 2, count := 2 }
      active := false
      activity := a
      spanRemaining := span
      pulsesDone := 0
      busyTriggers := 0 } }

theorem asked_head (k : Nat) (p : List Byte) (s : State) (h : s.supplies.main = true) :
    HeadIs (asked k p s) k ⟨7, k, p⟩ [] := ⟨h, rfl, (by decide : 0 < 16), rfl⟩

/-! ### WellFormed refuses what it must -/

theorem smoke_payload : Instr.wellFormed (.fill ⟨Vector.replicate 14 0, List.replicate 1025 0⟩) = false := by decide +kernel
theorem smoke_fill_kind : Instr.wellFormed (.fill (cellOf 1 0 0 0 0 [])) = false := by decide +kernel
theorem smoke_essence_kind : Instr.wellFormed (.essence (cellOf 2 0 0 0 0 [])) = false := by decide +kernel
theorem smoke_resource_kind : Instr.wellFormed (.resource (cellOf 3 0 0 0 0 [])) = false := by decide +kernel
theorem smoke_manage_kind : Instr.wellFormed (.manage (cellOf 0 0 0 0 0 [])) = false := by decide +kernel
theorem smoke_invalid_payload :
    Instr.wellFormed (.invalidCell ⟨Vector.replicate 14 0, List.replicate 1025 0⟩) = false := by decide +kernel
theorem smoke_span_line : Instr.wellFormed (.spanEnd 8) = false := by decide
theorem smoke_edge_input : Instr.wellFormed (.inputEdge 8) = false := by decide
theorem smoke_well_formed : Instr.wellFormed (.essence (cellOf 1 0xC0 0 7 9 [1])) = true := by decide +kernel

/-! ### Worked examples of the spec -/

/-- R41, R69: the check values over 123456789. -/
theorem test_header_check : crc16 digits = 0x29B1#16 := by decide +kernel
theorem test_frame_check : crc32 digits = 0xCBF43926#32 := by decide +kernel
/-- R36: the table of lead units. -/
theorem test_lead_units : leadUnitsOf 0 .r24 = 0 ∧ leadUnitsOf 1 .r24 = 1 ∧ leadUnitsOf 1010 .r48 = 49 ∧
    leadUnitsOf 1500 .r24 = 36 ∧ leadUnitsOf 2000 .r24 = 48 ∧ leadUnitsOf 60000 .r60 = 3600 := by decide
/-- R38: the table of delays. -/
theorem test_delay : delaySamples 367 .r48k = 1762 ∧ delaySamples 367 .r96k = 3523 ∧ delaySamples 2000 .r48k = 9600 ∧
    delaySamples 2000 .r96k = 19200 := by decide
/-- R105: the table of the default fader law. -/
theorem test_fader_law : [0, 10, 35, 50, 70, 80, 85, 90, 100].map defaultLawGain =
    [0, 2340, 8192, 11702, 16384, 21845, 24576, 27306, 32768] := by decide
/-- R108: one step toward a target. -/
theorem test_gain_step : stepToward 16384 32768 = 16448 ∧ stepToward 12032 12000 = 12000 ∧ stepToward 100 0 = 36 := by
  decide
/-- R141: 768 of the 1,000 line milliseconds of a run are 33 cycles long. -/
theorem test_line_ms : ((List.range 1000).map lineMsCycles).sum = 32768 := by decide +kernel
/-- R130 on a cue of in 1,000, out 1,010, fade in 3, fade out 2: 63, 127 and 191 of 255 up, then 170 and 85 down. -/
theorem test_opacity : [1000, 1001, 1002, 1003, 1007, 1008, 1009].map
    (opacityAt ⟨0, 1000, 1010, 3, 2, 255, 0, 0, 0, []⟩) = [63, 127, 191, 255, 255, 170, 85] := by decide
/-- R94: the step that passes 255 is a booth second. -/
theorem test_second : (⟨true, 41, 255⟩ : BoothTime).step = ⟨true, 42, 0⟩ := by decide
/-- R29: an earlier entry, and an earlier unit of one entry, come first. -/
theorem test_before : before playing (0, .unit 5) (1, .unit 2) = true ∧ before playing (0, .unit 5) (0, .unit 6) = true ∧
    before playing (0, .unit 6) (0, .unit 6) = false := by decide +kernel
/-- R68: the counter block of block 2 of unit 1 of slot P1. -/
theorem test_counter_block : counterBlock 1 1 2 = 0x00000001010000000000000000000002#128 := by decide

/-! ### Commands on small states -/

/-- R41 to R43: a FILL cell of a right check brings the lane UP; one bit wrong and the cell fails. -/
theorem test_fill : (run (.fill (cellOf 0 0 0 0 0 [])) State.reset).link.laneUp = true := by decide +kernel
theorem test_invalid : (run (.invalidCell ⟨Vector.replicate 14 0, []⟩) State.reset).link.counters.headerErrors = 1 ∧
    (run (.invalidCell ⟨Vector.replicate 14 0, []⟩) State.reset).link.laneUp = false := by decide +kernel
/-- R95: SET CLOCK in IDLE. -/
theorem test_set_clock : (run .setClock (asked 2 [0, 0, 1, 0, 9] State.reset)).clock = ⟨true, 256, 9⟩ := by decide +kernel
/-- R106: a position above 100 is clamped. -/
theorem test_set_fader : replyOf (run .setFader (asked 14 [200] State.reset)) = some (.ok, [100]) := by decide +kernel
/-- R7: CUE SHOW of an empty show is BAD_SHOW with index 0; of a show it enters CUED with showing 1. -/
theorem test_cue_show_empty : replyOf (run .cueShow (asked 20 [] State.reset)) = some (.badShow, [0, 0]) := by
  decide +kernel
theorem test_cue_show : replyOf (run .cueShow (asked 20 [] listed)) = some (.ok, [0, 0, 0, 1]) ∧
    (run .cueShow (asked 20 [] listed)).seq.state = .cued := by decide +kernel
/-- R14: GO in IDLE is refused STATE. -/
theorem test_go_idle : replyOf (run .go (asked 21 [] State.reset)) = some (.state, []) := by decide +kernel
/-- R20: toggle wins over set and clear. -/
theorem test_set_flags : replyOf (run .setFlags (asked 25 [5, 6, 8] State.reset)) = some (.ok, [13]) := by decide +kernel
/-- R23, R177: limits above their tops are clamped. -/
theorem test_set_limits : replyOf (run .setLimits (asked 26 [0xFF, 0xFF, 0, 250] State.reset)) =
    some (.ok, [0x0E, 0x10, 0, 240]) := by decide +kernel
/-- R184: the mask as stored. -/
theorem test_mask : replyOf (run .setReportMask (asked 30 [0xFF, 0, 0, 1] State.reset)) = some (.ok, [0, 0x40, 0, 1]) := by
  decide +kernel
/-- R13: a boundary within a segment. -/
theorem test_boundary : (run .unitBoundary playing).seq.offset = 4 ∧
    (run .unitBoundary playing).seq.showingTime = 4000 := by decide +kernel
/-- R18: the boundary after the last unit of a show of one segment ends it COMPLETE in IDLE at 0, 0. -/
theorem test_boundary_ends : (run .unitBoundary (inState .playing plain 9)).seq.state = .idle ∧
    (run .unitBoundary (inState .playing plain 9)).seq.offset = 0 := by decide +kernel
/-- R144: a pulse of delay 5 waits, then is ON for its width of 2. -/
theorem test_trigger : (bankGet (run .lineActionTrigger (asked 17 [3, 3] (lined 3 .pulse .idle 0))).lines.outputs 3).activity =
    .delaying := by decide +kernel
theorem test_span_end : (bankGet (run (.spanEnd 3) (lined 3 .pulse .delaying 0)).lines.outputs 3).spanRemaining = 2 := by
  decide +kernel
/-- R190: PACE before replies before reports; at reset only START_COLD waits. -/
theorem test_send : ((run .cellSendStart State.reset).lane.sending.map (·.kind)) = some 5 ∧
    (run .cellSendStart State.reset).reports.queue = [] := by decide +kernel
/-- R191: the loss of the backup supply clears the flag, and the next power-on is a cold start. -/
theorem test_backup_loss : (run .backupSupplyLoss State.reset).supplies.retainedValid = false := by decide +kernel
/-- A step takes the front of the queue and leaves the rest. -/
theorem test_step : (match step (State.reset.withPending [.backupSupplyLoss, .go]) with
    | .next t => (t.pending, t.supplies.backup)
    | .fault f => nomatch f
    | .refused _ => ([], true)) = ([.go], false) := by decide +kernel
/-- No word of the table spells a command. -/
theorem test_no_word : decodeTableWord 8 1 = none ∧ State.withFetchWord State.reset 8 1 = State.reset := by
  exact ⟨rfl, rfl⟩

/-! ### Witnesses: for each statement, states and operands that meet its hypotheses, clause by clause -/

theorem witness_step : (State.reset.withPending [.go]).pending = .go :: [] ∧ State.reset.pending = [] := ⟨rfl, rfl⟩

/-- The last tick of a unit, and a unit's first. -/
theorem witness_ticks_left : (let s := playing.withSeq { playing.seq with tickCount := 3999 }
    s.supplies.main = true ∧ s.seq.clockRunning = true ∧ s.seq.ticksPerUnit - s.seq.tickCount = 1) ∧
    playing.seq.tickCount < playing.seq.ticksPerUnit ∧ State.reset.seq.clockRunning = false := by decide

/-- R26: a tick below the last raises the count; the last one is the boundary, and the count returns to 0. -/
theorem test_tick : (idleTick (playing.withSeq { playing.seq with tickCount := 3998 })).seq.tickCount = 3999 ∧
    (let t := idleTick (playing.withSeq { playing.seq with tickCount := 3999 })
    t.seq.tickCount = 0 ∧ t.seq.offset = 4) := by decide +kernel

theorem witness_requests_wait : Instr.readStatus ∈ requestRows ∧
    Config.replyPlaces ≤ (State.reset.withMgmt ⟨[⟨7, 1, []⟩], List.replicate 16 ⟨7, 1, .ok, []⟩, 0⟩).mgmt.replies.length ∧
    State.reset.mgmt.queue = [] := by decide

theorem witness_no_power : (mainPowerLoss State.reset).supplies.main = false ∧ Instr.unitBoundary ∉ unpoweredRows := by
  decide

theorem witness_kind_and_length : HeadIs (asked 0 [] State.reset) 0 ⟨7, 0, []⟩ [] ∧
    HeadIs (asked 32 [] State.reset) 32 ⟨7, 32, []⟩ [] ∧ HeadIs (asked 1 [0] State.reset) 1 ⟨7, 1, [0]⟩ [] ∧
    (Instr.readStatus, 1, 0) ∈ fixedLengths ∧ [(0 : Byte)].length ≠ 0 :=
  ⟨asked_head _ _ _ rfl, asked_head _ _ _ rfl, asked_head _ _ _ rfl, by decide⟩

theorem witness_read_status : HeadIs (asked 1 [] playing) 1 ⟨7, 1, []⟩ [] := asked_head _ _ _ rfl

/-- A SET CLOCK to 300 seconds below a clock at 1,000, to one second further back, and outside IDLE. -/
theorem witness_set_clock : let back := State.reset.withClock ⟨true, 1000, 0⟩
    HeadIs (asked 2 [0, 0, 2, 0xBC, 0] back) 2 ⟨7, 2, [0, 0, 2, 0xBC, 0]⟩ [] ∧
    HeadIs (asked 2 [0, 0, 2, 0xBB, 0] back) 2 ⟨7, 2, [0, 0, 2, 0xBB, 0]⟩ [] ∧
    HeadIs (asked 2 [0, 0, 0, 0, 0] playing) 2 ⟨7, 2, [0, 0, 0, 0, 0]⟩ [] ∧
    (back.seq.state = .idle ∧ back.clock.isSet = true ∧ 1000 ≤ field [0, 0, 2, 0xBC, 0] 0 4 + 300 ∧
      field [0, 0, 2, 0xBB, 0] 0 4 + 300 < 1000 ∧ playing.seq.state ≠ .idle) :=
  ⟨asked_head _ _ _ rfl, asked_head _ _ _ rfl, asked_head _ _ _ rfl, by decide⟩

/-- The parameters of a LOAD KEY: key id 1, every kind, window 0 to 9, unlimited. -/
def loadParams : List Byte := be 16 1 ++ be 16 2 ++ be 1 7 ++ be 4 0 ++ be 4 9 ++ be 2 0 ++ be 48 0

theorem witness_load_key : HeadIs (asked 3 loadParams State.reset) 3 ⟨7, 3, loadParams⟩ [] ∧
    (loadParams.length = 91 ∧ loadFieldsOk loadParams = true ∧ findKey State.reset.licences (idField loadParams 0) = none ∧
      lowestEmpty State.reset.licences = some 0) :=
  ⟨asked_head _ _ _ rfl, by decide +kernel⟩

/-- The part with licence slot 63 in a state, of generation 4. -/
def licensed (st : LicState) (permitted counted : Nat) : State := State.reset.withLicences
  (bankSet State.reset.licences 63 { Licence.emptied 4 with
    state := st
    windowEnd := 9
    permitted := permitted
    counted := counted })

theorem witness_erase_key : HeadIs (asked 4 [64, 0, 0, 0] State.reset) 4 ⟨7, 4, [64, 0, 0, 0]⟩ [] ∧
    HeadIs (asked 4 [63, 0, 0, 0] (licensed .bound 0 0)) 4 ⟨7, 4, [63, 0, 0, 0]⟩ [] ∧
    HeadIs (asked 4 [63, 1, 0, 5] (licensed .spent 0 0)) 4 ⟨7, 4, [63, 1, 0, 5]⟩ [] ∧
    HeadIs (asked 4 [63, 1, 0, 4] (licensed .spent 0 0)) 4 ⟨7, 4, [63, 1, 0, 4]⟩ [] ∧
    HeadIs (asked 4 [63, 2, 0, 4] (licensed .bound 0 0)) 4 ⟨7, 4, [63, 2, 0, 4]⟩ [] ∧
    ((bankGet (licensed .bound 0 0).licences 63).state = .bound ∧ (bankGet (licensed .spent 0 0).licences 63).state = .spent ∧
      (bankGet (licensed .spent 0 0).licences 63).generation = 4 ∧ (bankGet State.reset.licences 63).state = .empty) := by
  refine ⟨?_, ?_, ?_, ?_, ?_, by decide +kernel⟩ <;> exact asked_head _ _ _ rfl

/-- A presence byte above 1 of a BOUND entry (assumption log 39). -/
theorem test_erase_presence : replyOf (run .eraseKey (asked 4 [63, 2, 0, 4] (licensed .bound 0 0))) = some (.badParam, []) := by
  decide +kernel

theorem witness_read_key : HeadIs (asked 5 [63] State.reset) 5 ⟨7, 5, [63]⟩ [] ∧
    HeadIs (asked 5 [64] State.reset) 5 ⟨7, 5, [64]⟩ [] ∧ (bankGet State.reset.licences 63).state = .empty :=
  ⟨asked_head _ _ _ rfl, asked_head _ _ _ rfl, by decide +kernel⟩

/-- READ KEY of an EMPTY entry: 52 bytes, the last two its generation. -/
theorem test_read_key : replyOf (run .readKey (asked 5 [63] State.reset)) = some (.ok, List.replicate 52 0) := by
  decide +kernel

theorem witness_reads : HeadIs (asked 7 [127] State.reset) 7 ⟨7, 7, [127]⟩ [] ∧
    HeadIs (asked 10 [255] State.reset) 10 ⟨7, 10, [255]⟩ [] ∧ HeadIs (asked 12 [7] State.reset) 12 ⟨7, 12, [7]⟩ [] ∧
    HeadIs (asked 18 [1, 7] State.reset) 18 ⟨7, 18, [1, 7]⟩ [] ∧
    HeadIs (asked 18 [2, 8] State.reset) 18 ⟨7, 18, [2, 8]⟩ [] ∧ HeadIs (asked 27 [0] State.reset) 27 ⟨7, 27, [0]⟩ [] ∧
    HeadIs (asked 28 [0, 0, 0, 0] State.reset) 28 ⟨7, 28, [0, 0, 0, 0]⟩ [] := by
  refine ⟨?_, ?_, ?_, ?_, ?_, ?_, ?_⟩ <;> exact asked_head _ _ _ rfl

/-- WRITE ENTRY of an advert of 10 units at an index, with the generation expected or none. -/
def writeParams (i : Nat) (want : List Byte) : List Byte :=
  be 1 i ++ want ++ entryBody { Entry.emptied 0 with cls := .advert, duration := 10 }

theorem witness_write_entry : HeadIs (asked 6 (writeParams 127 [0, 0, 0]) playing) 6 ⟨7, 6, writeParams 127 [0, 0, 0]⟩ [] ∧
    HeadIs (asked 6 (writeParams 0 [0, 0, 0]) playing) 6 ⟨7, 6, writeParams 0 [0, 0, 0]⟩ [] ∧
    HeadIs (asked 6 (writeParams 127 [1, 0, 1]) playing) 6 ⟨7, 6, writeParams 127 [1, 0, 1]⟩ [] ∧
    ((writeParams 127 [0, 0, 0]).length = 51 ∧ entryCoded (writeParams 127 [1, 0, 1]) 4 = true ∧
      (readEntryBody (writeParams 127 [1, 0, 1]) 4 1).fieldsOk = true ∧ entryInUse playing 127 = false ∧
      entryInUse playing 0 = true ∧ field (writeParams 127 [1, 0, 1]) 2 2 ≠ (bankGet playing.showList 127).generation) :=
  ⟨asked_head _ _ _ rfl, asked_head _ _ _ rfl, asked_head _ _ _ rfl, by decide +kernel⟩

theorem witness_clear_list : HeadIs (asked 8 [] State.reset) 8 ⟨7, 8, []⟩ [] ∧ HeadIs (asked 8 [] playing) 8 ⟨7, 8, []⟩ [] ∧
    (State.reset.seq.state = .idle ∧ playing.seq.state ≠ .idle) :=
  ⟨asked_head _ _ _ rfl, asked_head _ _ _ rfl, by decide⟩

/-- WRITE CUE of a MARK at START + 0, with the generation expected or none. -/
def cueParams (want : List Byte) : List Byte := [255] ++ want ++ [1, 0, 0, 0, 0, 0, 2, 0, 9, 0]

theorem witness_write_cue : HeadIs (asked 9 (cueParams [0, 0, 0]) State.reset) 9 ⟨7, 9, cueParams [0, 0, 0]⟩ [] ∧
    HeadIs (asked 9 (cueParams [1, 0, 1]) State.reset) 9 ⟨7, 9, cueParams [1, 0, 1]⟩ [] ∧
    ((cueParams [0, 0, 0]).length = 14 ∧ cueCoded (cueParams [0, 0, 0]) 4 = true ∧
      field (cueParams [1, 0, 1]) 2 2 ≠ (bankGet State.reset.cues 255).generation) :=
  ⟨asked_head _ _ _ rfl, asked_head _ _ _ rfl, by decide +kernel⟩

/-- WRITE PROFILE 7 with the default profile's fields and a sync delay above the top. -/
def profileParams : List Byte := [7, 0, 0, 0] ++ profileBytes { Profile.default with syncDelay := 2001 }

theorem witness_write_profile : HeadIs (asked 11 profileParams State.reset) 11 ⟨7, 11, profileParams⟩ [] ∧
    (profileParams.length = 60 ∧ profileCoded profileParams 4 = true) := ⟨asked_head _ _ _ rfl, by decide +kernel⟩

theorem witness_sound_settings : HeadIs (asked 13 [100, 1, 0, 9] State.reset) 13 ⟨7, 13, [100, 1, 0, 9]⟩ [] ∧
    HeadIs (asked 14 [255] State.reset) 14 ⟨7, 14, [255]⟩ [] ∧ HeadIs (asked 15 [1] State.reset) 15 ⟨7, 15, [1]⟩ [] :=
  ⟨asked_head _ _ _ rfl, asked_head _ _ _ rfl, asked_head _ _ _ rfl⟩

/-- CONFIGURE LINE of output 7 as a TRAIN, and of input 7 as a held input with debounce 255. -/
def outParams : List Byte := [0, 7] ++ outConfigBytes ⟨.train, true, 65535, 1, 255, 1, 1, some (7, true)⟩
def inParams : List Byte := [1, 7] ++ inConfigBytes ⟨true, .both, 255, .pause, true⟩

theorem witness_configure_line : HeadIs (asked 16 outParams State.reset) 16 ⟨7, 16, outParams⟩ [] ∧
    HeadIs (asked 16 inParams State.reset) 16 ⟨7, 16, inParams⟩ [] ∧
    (outParams.length = 15 ∧ outConfigOk outParams 2 = true ∧ inParams.length = 10 ∧ inConfigOk inParams 2 = true) :=
  ⟨asked_head _ _ _ rfl, asked_head _ _ _ rfl, by decide⟩

/-- R152: on an ACTIVE_LOW polarity a low pin reads ACTIVE, and the held input joins the set with no edge. -/
theorem test_configure_input : (run .configureInputLine (asked 16 inParams State.reset)).seq.held = 0x80#8 := by
  decide +kernel

theorem witness_level_line : HeadIs (asked 17 [7, 0] (lined 7 .level .idle 0)) 17 ⟨7, 17, [7, 0]⟩ [] ∧
    HeadIs (asked 17 [7, 1] (lined 7 .level .idle 0)) 17 ⟨7, 17, [7, 1]⟩ [] ∧
    HeadIs (asked 17 [7, 2] (lined 7 .level .idle 0)) 17 ⟨7, 17, [7, 2]⟩ [] ∧
    (bankGet (lined 7 .level .idle 0).lines.outputs 7).config.mode = .level :=
  ⟨asked_head _ _ _ rfl, asked_head _ _ _ rfl, asked_head _ _ _ rfl, by decide +kernel⟩

theorem witness_trigger_and_stop : HeadIs (asked 17 [7, 3] (lined 7 .pulse .idle 0)) 17 ⟨7, 17, [7, 3]⟩ [] ∧
    HeadIs (asked 17 [7, 3] (lined 7 .train .idle 0)) 17 ⟨7, 17, [7, 3]⟩ [] ∧
    HeadIs (asked 17 [7, 3] (lined 7 .train .off 1)) 17 ⟨7, 17, [7, 3]⟩ [] ∧
    HeadIs (asked 17 [7, 4] (lined 7 .pulse .on 1)) 17 ⟨7, 17, [7, 4]⟩ [] ∧
    ((bankGet (lined 7 .pulse .idle 0).lines.outputs 7).config.delay = 5 ∧
      (bankGet (lined 7 .train .off 1).lines.outputs 7).activity ≠ .idle) :=
  ⟨asked_head _ _ _ rfl, asked_head _ _ _ rfl, asked_head _ _ _ rfl, asked_head _ _ _ rfl, by decide +kernel⟩

/-- A pulse without a delay goes ACTIVE at once. -/
theorem test_trigger_at_once : let s := State.reset.withLines { State.reset.lines with
      outputs := bankSet State.reset.lines.outputs 0 (State.restOutput { OutConfig.default with mode := .pulse, width := 4 }) }
    (bankGet s.lines.outputs 0).config.delay = 0 ∧
      replyOf (run .lineActionTrigger (asked 17 [0, 3] s)) = some (.ok, [1, 2, 0]) := by decide +kernel

theorem witness_foreign_action : (Instr.lineActionStop, LineAct.stop) ∈ actionRows ∧
    HeadIs (asked 17 [7, 4] (lined 7 .level .idle 0)) 17 ⟨7, 17, [7, 4]⟩ [] ∧
    HeadIs (asked 17 [8, 4] State.reset) 17 ⟨7, 17, [8, 4]⟩ [] ∧ HeadIs (asked 17 [7, 5] State.reset) 17 ⟨7, 17, [7, 5]⟩ [] ∧
    ignores (bankGet (lined 7 .level .idle 0).lines.outputs 7).config.mode .stop = true :=
  ⟨by decide, asked_head _ _ _ rfl, asked_head _ _ _ rfl, asked_head _ _ _ rfl, by decide +kernel⟩

theorem witness_read_capture : HeadIs (asked 19 [7] State.reset) 19 ⟨7, 19, [7]⟩ [] ∧
    HeadIs (asked 19 [8] State.reset) 19 ⟨7, 19, [8]⟩ [] ∧ (bankGet State.reset.lines.inputs 7).capture = none :=
  ⟨asked_head _ _ _ rfl, asked_head _ _ _ rfl, by decide +kernel⟩

/-- A capture of input 7, unread. -/
theorem witness_capture : (bankGet (setInput 7 { bankGet State.reset.lines.inputs 7 with
    capture := some ⟨false, true, .playing, 4294967295, 127, 16777214, ⟨true, 9, 255⟩⟩
    unread := true } State.reset).lines.inputs 7).capture.isSome = true := by decide +kernel

theorem witness_cue_show : HeadIs (asked 20 [] listed) 20 ⟨7, 20, []⟩ [] ∧ cueRefusal (asked 20 [] listed) = none :=
  ⟨asked_head _ _ _ rfl, by decide +kernel⟩

/-- A show whose one entry has these changes. -/
def listedAs (f : Entry → Entry) : State := State.reset.withShowList (bankSet State.reset.showList 0
  (f { Entry.emptied 0 with cls := .advert, duration := 10 }))

/-- An alternate-only entry that nothing names is a bad entry; a protected show needs the clock, then a licence. -/
theorem witness_cue_show_refused : let bad := listedAs (fun e => { e with altOnly := true })
    let locked := listedAs (fun e => { e with isProtected := true })
    let timed := locked.withClock ⟨true, 5, 0⟩
    let top := listed.withRecorder { listed.recorder with nextNumber := 4294967295 }
    (bankGet State.reset.showList 0).cls = .empty ∧ firstBadEntry bad.showList = some 0 ∧
      firstBadEntry top.showList = none ∧ (selectAt top.showList top.seq.flags 0).2 = some 0 ∧
      examined locked.showList = [0] ∧ locked.clock.isSet = false ∧
      firstUncovered timed.showList timed.licences timed.clock.seconds (examined timed.showList) = some (0, 0) ∧
      playing.seq.state ≠ .idle := by decide +kernel

/-- The refusals themselves, in R7's order. -/
theorem test_cue_show_refused :
    replyOf (run .cueShow (asked 20 [] (listedAs (fun e => { e with isProtected := true })))) = some (.clockUnset, []) ∧
    replyOf (run .cueShow (asked 20 [] ((listedAs (fun e => { e with isProtected := true })).withClock ⟨true, 5, 0⟩))) =
      some (.licence, [0, 0, 0]) := by decide +kernel

/-- R7 step 3: a show of one entry whose condition is false. -/
theorem witness_cue_show_none : let s := listedAs (fun e => { e with cond := .flag 7 true })
    s.seq.state = .idle ∧ (bankGet s.showList 0).cls ≠ .empty ∧ firstBadEntry s.showList = none ∧
      (∀ i, i < showLength s.showList → (bankGet s.showList i).altOnly = false →
        (bankGet s.showList i).cond.holds s.seq.flags = false) ∧
      replyOf (run .cueShow (asked 20 [] s)) = some (.badShow, [0, 0]) := by decide +kernel

theorem witness_go_and_stop : HeadIs (asked 21 [] (inState .cued plain 0)) 21 ⟨7, 21, []⟩ [] ∧
    HeadIs (asked 24 [] playing) 24 ⟨7, 24, []⟩ [] := ⟨asked_head _ _ _ rfl, asked_head _ _ _ rfl⟩

/-- The part PAUSED with a resume pending, the limit of 1 s reached. -/
def pausedLong : State := let s := inState .paused plain 3
  s.withSeq { s.seq with
    pausedFrom := some .playing
    pauseSteps := 256
    pauseLimit := 1
    pend := { PendingControls.none with resume := true } }

theorem witness_pause_and_resume :
    (let p := pended { PendingControls.none with pause := some .operator } playing
    HeadIs (asked 23 [] p) 23 ⟨7, 23, []⟩ [] ∧ p.seq.pend.pause ≠ none ∧ p.seq.held = 0) ∧
    (let p := pausedLong.withSeq { pausedLong.seq with held := 1 }
    HeadIs (asked 23 [] p) 23 ⟨7, 23, []⟩ [] ∧ p.seq.held ≠ 0) ∧
    (HeadIs (asked 22 [] playing) 22 ⟨7, 22, []⟩ [] ∧ HeadIs (asked 22 [] pausedLong) 22 ⟨7, 22, []⟩ [] ∧
      HeadIs (asked 22 [] State.reset) 22 ⟨7, 22, []⟩ [] ∧ HeadIs (asked 23 [] pausedLong) 23 ⟨7, 23, []⟩ [] ∧
      HeadIs (asked 23 [] lastLead) 23 ⟨7, 23, []⟩ []) ∧
    (pausedLong.seq.pend.resume = true ∧ 256 * pausedLong.seq.pauseLimit ≤ pausedLong.seq.pauseSteps ∧
      (inState .paused plain 3).seq.pend.resume = false ∧ lastLead.seq.pend.pause = none) := by
  refine ⟨⟨asked_head _ _ _ rfl, by decide⟩, ⟨asked_head _ _ _ rfl, by decide⟩, ?_, by decide⟩
  refine ⟨?_, ?_, ?_, ?_, ?_⟩ <;> exact asked_head _ _ _ rfl

/-- R15: RESUME in LEAD or PLAYING is STATE with no pause pending, HELD with one and a held input. -/
theorem test_resume_refused : replyOf (run .resume (asked 23 [] lastLead)) = some (.state, []) ∧
    (let p := pended { PendingControls.none with pause := some .starved } playing
    replyOf (run .resume (asked 23 [] (p.withSeq { p.seq with held := 128 }))) = some (.held, [])) := by decide +kernel

theorem witness_set_flags : HeadIs (asked 25 [1, 1, 0] State.reset) 25 ⟨7, 25, [1, 1, 0]⟩ [] := asked_head _ _ _ rfl

/-- SET LIMITS 1, 1 in PAUSED at 256 and at 255 steps, in PLAYING at a starvation count of 1 and of 0, and with a starved
pause pending; and SET LIMITS 0, 0. -/
theorem witness_set_limits : (HeadIs (asked 26 [0, 1, 0, 1] playing) 26 ⟨7, 26, [0, 1, 0, 1]⟩ [] ∧
      HeadIs (asked 26 [0, 0, 0, 0] playing) 26 ⟨7, 26, [0, 0, 0, 0]⟩ []) ∧
    (let p := (inState .paused plain 3).withSeq { (inState .paused plain 3).seq with pauseSteps := 256 }
    p.seq.state = .paused ∧ p.seq.pend.resume = false ∧ 256 * 1 ≤ p.seq.pauseSteps ∧ ¬ 256 * 1 ≤ p.seq.pauseSteps - 1) ∧
    (let p := playing.withSeq { playing.seq with starvation := 1 }
    p.seq.state = .playing ∧ 1 ≤ p.seq.starvation ∧ ¬ 1 ≤ playing.seq.starvation ∧ p.seq.pend.pause ≠ some .starved) ∧
    (pended { PendingControls.none with pause := some .starved } playing).seq.pend.pause = some .starved := by
  refine ⟨⟨asked_head _ _ _ rfl, asked_head _ _ _ rfl⟩, ?_⟩
  decide

/-- R23, R22: a reached limit raises STARVED once; a limit of 0 leaves the pending pause. -/
theorem test_set_limits_starved : let s := playing.withSeq { playing.seq with starvation := 1 }
    (run .setLimits (asked 26 [0, 1, 0, 1] s)).reports.queue.map (fun x => (x.kind, x.detail1)) =
      [(.startCold, 620), (.starved, 1)] ∧
    (run .setLimits (asked 26 [0, 0, 0, 0] (pended { PendingControls.none with pause := some .starved } s))).seq.pend.pause =
      some .starved := by decide +kernel

theorem witness_mark_collected : HeadIs (asked 29 [0, 0, 0, 1] State.reset) 29 ⟨7, 29, [0, 0, 0, 1]⟩ [] :=
  asked_head _ _ _ rfl

theorem witness_report_mask : HeadIs (asked 30 [0, 0, 0, 0] State.reset) 30 ⟨7, 30, [0, 0, 0, 0]⟩ [] ∧
    storedMask 0 = 0x00400000#32 ∧ (storedMask 0).getLsbD ReportKind.mark.code = false :=
  ⟨asked_head _ _ _ rfl, by decide⟩

/-- A showing open in CUED, and the state its end by STOP leaves. -/
def shown : State := run .cueShow (asked 20 [] listed)
def ended : State := run .unitBoundary (run .stop (asked 24 [] shown))

theorem witness_reset : HeadIs (asked 31 [] shown) 31 ⟨7, 31, []⟩ [] ∧ HeadIs (asked 31 [] State.reset) 31 ⟨7, 31, []⟩ [] ∧
    ((asked 31 [] shown).recorder.status = .opened ∧ State.reset.recorder.status ≠ .opened ∧
      ∀ x ∈ (asked 31 [] shown).licences.toList, x.state ≠ .bound) :=
  ⟨asked_head _ _ _ (by decide +kernel), asked_head _ _ _ rfl, by decide +kernel⟩

/-- R166, R185: the reset closes the showing RESET and leaves IDLE. -/
theorem test_reset : (run .reset (asked 31 [] shown)).recorder.record.endCause = some .reset ∧
    (run .reset (asked 31 [] shown)).seq.state = .idle ∧
    (run .reset (asked 31 [] shown)).reports.queue.map (fun x => (x.kind, x.showing, x.detail1, x.detail2)) =
      [(.showingEnd, 1, 4, 0)] := by decide +kernel

theorem witness_boundary_plays : playing.supplies.main = true ∧ playing.seq.clockRunning = true ∧
    playing.seq.state = .playing ∧ playing.seq.ctx = some (ctxOf plain 1) ∧
    playing.seq.offset + 1 < (ctxOf plain 1).segment.duration ∧ playing.seq.pend = PendingControls.none := by decide

/-- PLAYING offset 3 with one unit queued on P0, that of offset 4 in a state with check attributes. -/
def dueUnit (st : UnitState) (isProtected : Bool) : State := setQueue 0
  [⟨0, 4, st, none, false, 1, [9], some ⟨isProtected, none, none, none⟩⟩] playing

theorem witness_due_unit : (∀ v ∈ queueOf (dueUnit .ready false) 0, lateFor (dueUnit .ready false) 0 (v.seg, .unit v.unit) = false) ∧
    (queueOf (dueUnit .ready false) 0).map (fun v => (v.seg, v.unit, v.state)) = [(0, 4, .ready)] ∧
    (queueOf (dueUnit .ready true) 0).map (fun v => v.attrs.map (·.isProtected)) = [some true] ∧
    (queueOf (dueUnit (.failed .checkFail) false) 0).map (·.state) = [.failed .checkFail] ∧
    (queueOf (dueUnit .waiting false) 0).map (·.state) = [.waiting] ∧ queueOf playing 0 = [] := by decide +kernel

/-- R72, R73, R75: the due unit good, failing its recheck, FAILED, in work and absent. -/
theorem test_due_unit :
    (let f := fun s : State => let t := run .unitBoundary s
      (t.picture.records.map (fun r => (r.content, r.cause)), (queueOf t 0).length)
    f (dueUnit .ready false) = ([(.unit [9], .none)], 0) ∧ f (dueUnit .ready true) = ([(.black, .keyMismatch)], 0) ∧
    f (dueUnit (.failed .checkFail) false) = ([(.black, .checkFail)], 0) ∧
    f (dueUnit .waiting false) = ([(.black, .notReady)], 1) ∧ f playing = ([(.black, .missing)], 0)) := by decide +kernel

/-- The last unit of entry 0 of a show of two, the second held or not, or of a show of one. -/
def lastUnit (hold : Bool) : State := (inState .playing plain 9).withShowList
  (bankSet listed.showList 1 { Entry.emptied 0 with cls := .trailer, duration := 5, rate := .r25, leadGap := 1, hold := hold })

theorem witness_segment_end : (lastUnit true).seq.offset + 1 = plain.duration ∧
    (lastUnit true).seq.pend = PendingControls.none ∧ showLength (lastUnit true).showList = 2 ∧
    (bankGet (lastUnit true).showList 1).altOnly = false ∧
    (bankGet (lastUnit true).showList 1).cond.holds (lastUnit true).seq.flags = true ∧
    (∀ j, 0 < j → j < 1 → False) ∧ showLength listed.showList = 1 := by
  refine ⟨?_, ?_, ?_, ?_, ?_, by omega, ?_⟩ <;> decide +kernel

/-- R12, R27: the next segment begins in HOLD where it is held, else in LEAD, at its own ticks per unit. -/
theorem test_segment_end : let f := fun s : State => let t := run .unitBoundary s
      (t.seq.state, t.seq.seg, t.seq.offset, t.seq.ticksPerUnit, t.seq.leadRemaining)
    f (lastUnit true) = (.hold, 1, 0, 3840, 0) ∧ f (lastUnit false) = (.lead, 1, 0, 3840, 1) := by decide +kernel

/-- Entries 1 and 2 wait for a flag, 3 is the principal of 4 with 4 due, and 1 was written to name 4 too, which gives 4 the
play rank 1; the store holds a resource of each of 1 to 5. -/
def passed : State :=
  let e := fun (n : Option Nat) (only : Bool) (c : Condition) =>
    { Entry.emptied 0 with cls := .trailer, alternate := n, altOnly := only, cond := c, dueAlternate := !only }
  (listed.withShowList ([(1, e (some 4) false (.flag 0 true)), (2, e none false (.flag 0 true)), (3, e (some 4) false .always),
    (4, e (some 3) true .always), (5, e none false .always)].foldl (fun l x => bankSet l x.1 x.2) listed.showList)).withText
      { State.reset.text with store := [1, 2, 3, 4, 5].map (fun i => ⟨i, 4, 0, none, 0, .ready, none, false, [], none⟩) }

/-- R10, R123: the selection of 3 plays 4, and frees what the entries skipped and the member not played hold. -/
theorem test_passed : selectAt passed.showList 0 1 = ([1, 2], some 3) ∧ playRank passed.showList 4 = 1 ∧
    (contextFor passed 3).played = 4 ∧ (textSelection (contextFor passed 3) passed).text.store.map (·.seg) = [4, 5] := by
  decide +kernel

/-- Entry 4 in play as the partner of 3, its principal's due member flipped back to THIS. -/
def passedPlaying : State :=
  let s := passed.withShowList (bankSet passed.showList 3 (bankGet passed.showList 3).flipped)
  s.withSeq { s.seq with state := .playing, ctx := some (contextFor passed 3), seg := 4 }

/-- R10, R47 step 2, R51 step 2: units and resources of the entries skipped and of the principal not played are LATE. -/
theorem test_passed_late : before passedPlaying (3, .unit 0) (4, .unit 0) = false ∧
    [1, 2, 3].map (fun i => essenceCheck 0 i 0 passedPlaying) = [some .late, some .late, some .late] ∧
    [2, 3].map (fun i => resourceCheck 4 i passedPlaying) = [some .late, some .late] ∧
    essenceCheck 0 5 0 passedPlaying = none := by decide +kernel

/-- Entry 0 in play by itself, its partner 1 due but outside the show when 0 was selected; the show was then lengthened. -/
def lengthened : State :=
  let s := State.reset.withShowList (bankSet (bankSet State.reset.showList 0
      { Entry.emptied 0 with cls := .trailer, duration := 10, alternate := some 1, dueAlternate := true }) 1
    { Entry.emptied 0 with cls := .trailer, duration := 10, subtitles := true, alternate := some 0, altOnly := true })
  s.withSeq { s.seq with state := .playing, ctx := some (ctxOf (bankGet s.showList 0).toSegment 0) }

/-- R47 step 3, R51 step 3: for the current place the played member alone is expected. -/
theorem test_partner_not_expected : lengthened.seq.ctx.map (·.principal) = some 0 ∧
    validAlternate lengthened.showList 0 = some 1 ∧ essenceCheck 0 1 0 lengthened = some .notExpected ∧
    resourceCheck 4 1 lengthened = some .notExpected := by decide +kernel

/-- PLAYING offset 8 of a FEATURE of 10 units with cue 255 in its range, entry 0 the principal of a pair. -/
def nearEnd (a : Anchor) (x : CueAction) : State :=
  let s := inState .playing { plain with cls := .feature, countPoint := some 9, cueFirst := 255, cueCount := 1 } 8
  (s.withSeq { s.seq with ctx := s.seq.ctx.map (fun c => { c with other := some 1 }) }).withCues
    (bankSet s.cues 255 ⟨a, .always, x, 0⟩)

theorem witness_flip_count_cues : let s := nearEnd (.start 9) (.mark 65535)
    (s.seq.ctx.map (fun c => (c.other, c.segment.duration, c.segment.countPoint))) = some (some 1, 10, some 9) ∧
      s.seq.offset + 2 = 10 ∧ s.reports.mask.getLsbD 8 = true ∧ (run .unitBoundary s).reports.lost = s.reports.lost ∧
      bankGet s.cues 255 = ⟨.start 9, .always, .mark 65535, 0⟩ := by decide +kernel

/-- R19, R156: the flip as the last unit begins, a FLAG cue anchored END - 1, and an ON_STOP cue. -/
theorem test_flip_and_cues : (bankGet (run .unitBoundary (nearEnd (.start 9) (.mark 5))).showList 0).dueAlternate = true ∧
    ((run .unitBoundary (nearEnd (.start 9) (.mark 5))).reports.queue.any (fun x => x.kind == .mark)) = true ∧
    (run .unitBoundary (nearEnd (.finish 1) (.flag 128 0 0))).seq.flags = 128 ∧
    (run .unitBoundary (pended { PendingControls.none with stop := true } (nearEnd .onStop (.flag 0 0 1)))).seq.flags = 1 := by
  decide +kernel

theorem witness_boundary_controls :
    (let s := pended { PendingControls.none with go := true } (inState .hold plain 0)
    s.seq.ctx = some (ctxOf plain 1) ∧ s.seq.state = .hold ∧ s.seq.clockRunning = true) ∧
    (let s := pended { PendingControls.none with pause := some .starved } playing
    s.seq.state = .playing ∧ s.seq.offset + 1 < plain.duration) ∧
    (let s := pended { PendingControls.none with resume := true } pausedLong
    s.seq.state = .paused ∧ s.seq.pausedFrom = some .playing ∧ s.seq.ctx = some (ctxOf plain 1)) := by decide

/-- R13: a go from HOLD with one lead unit enters LEAD; a resume goes back to PLAYING with the position as it was. -/
theorem test_boundary_controls :
    (run .unitBoundary (pended { PendingControls.none with go := true } (inState .hold plain 0))).seq.state = .lead ∧
    (run .unitBoundary (pended { PendingControls.none with resume := true } pausedLong)).seq.state = .playing ∧
    (run .unitBoundary (pended { PendingControls.none with resume := true } pausedLong)).seq.offset = 3 := by
  decide +kernel

theorem witness_boundary_ends : (let s := run .stop (asked 24 [] shown)
    s.supplies.main = true ∧ s.seq.clockRunning = true ∧ s.seq.pend.stop = true ∧ s.recorder.status = .opened) ∧
    (pended { PendingControls.none with timeout := true } playing).seq.pend.timeout = true := by decide +kernel

/-- R28, R91: the LICENCE_STATE of a release at a STOP in PLAYING carries the position the last boundary left. -/
theorem test_release_position : (run .unitBoundary ((pended { PendingControls.none with stop := true } playing).withLicences
    (bankSet State.reset.licences 0 { Licence.emptied 0 with state := .bound }))).reports.queue.map
      (fun x => (x.kind, x.offset)) = [(.startCold, 0), (.licenceState, 3), (.showState, 0)] := by decide +kernel

/-- R13 step 2, R161: a stop in CUED ends the showing CANCELLED. -/
theorem test_cancelled : ended.recorder.record.endCause = some .cancelled ∧ ended.recorder.log.map (·.number) = [1] := by
  decide +kernel

/-- PLAYING one concealed unit below a starvation limit of 120 with nothing queued. -/
def starving : State := playing.withSeq { playing.seq with starvation := 119 }

theorem witness_lead_end_and_starved : (lastLead.seq.state = .lead ∧ lastLead.seq.leadRemaining = 1 ∧
    lastLead.seq.pend = PendingControls.none ∧ lastLead.seq.ctx = some (ctxOf plain 1)) ∧
    (queueOf starving 0 = [] ∧ 0 < starving.seq.starveLimit ∧ starving.seq.starveLimit ≤ 240 ∧
      starving.seq.starvation < 240 ∧ starving.seq.starveLimit ≤ starving.seq.starvation + 1) := by decide

theorem test_lead_end : (run .leadEnd lastLead).seq.state = .playing ∧ (run .leadEnd lastLead).seq.showingTime = 4000 := by
  decide +kernel
theorem test_starved : (run .starved starving).seq.pend.pause = some .starved ∧
    (run .starved starving).seq.starvation = 120 := by decide +kernel

theorem rings_at_reset : RingsHold State.reset.sound := ⟨by decide +kernel, by decide⟩

theorem witness_sample_instant : State.reset.supplies.main = true ∧ State.reset.seq.clockRunning = false ∧
    State.reset.sound.delay ≤ 19200 ∧ RingsHold State.reset.sound := ⟨rfl, rfl, by decide, rings_at_reset⟩

/-- R108: the master's first step toward the default law's gain at 70. -/
theorem test_sample : (run .sampleInstant State.reset).sound.master = 64 ∧
    (run .sampleInstant State.reset).sound.writeIndex = 1 := by decide +kernel

/-- A T0 cue of a number, from 10 up to 20. -/
def titled (n : Nat) : Cue := ⟨n, 10, 20, 3, 0, 255, 0, 0, 0, []⟩

/-- T0 with so many cues of in 10 pending, and so many display slots from 0 up holding a cue until an out. -/
def titles (pendingCues busy out : Nat) : State := State.reset.withText { State.reset.text with
  t0 := ⟨(List.range pendingCues).map titled, some 0, true⟩
  display := bankOf 4 (fun i => if i < busy then some ⟨{ titled 9 with outPoint := out }, true, false⟩ else none) }

theorem witness_subtitles : (titles 1 3 20).text.t0.comparator = some 0 ∧
    ((titles 1 3 20).text.t0.cues.drop 0).takeWhile (fun c => decide (c.inPoint ≤ 10 ∧ c.inPoint < 11)) = [titled 0] ∧
    ((titles 1 3 20).text.t0.cues.drop 0).takeWhile (fun c => decide (c.inPoint ≤ 9 ∧ c.inPoint < 11)) = [] ∧
    bankGet (titles 1 3 20).text.display 3 = none ∧ (∀ j, j < 3 → bankGet (titles 1 3 20).text.display j ≠ none) ∧
    (∀ j, j < 4 → bankGet (titles 1 4 11).text.display j ≠ none) ∧ (∀ j, j < 4 → bankGet (titles 5 0 0).text.display j = none) ∧
    (titled 0).inPoint ≤ 12 ∧ 19 < (titled 0).outPoint ∧ State.reset.text.t0.comparator = none ∧
    playing.seq.ctx = some (ctxOf plain 1) ∧ playing.seq.offset ≠ 0 := by decide +kernel

/-- R127: the lowest free slot; the drop where four are busy; release before admission; the fifth of five dropped. -/
theorem test_subtitles : let f := fun s : State => let t := runT0 11 10 s
      ((List.range 4).map (fun i => (bankGet t.text.display i).map (·.cue.number)), t.reports.queue.map (·.kind))
    f (titles 1 3 11) = ([some 9, some 9, some 9, some 0], [.startCold]) ∧
    f (titles 1 4 11) = ([some 9, some 9, some 9, some 9], [.startCold, .cueDropped]) ∧
    f (titles 1 4 10) = ([some 0, none, none, none], [.startCold]) ∧
    f (titles 5 0 0) = ([some 0, some 1, some 2, some 3], [.startCold, .cueDropped]) := by decide +kernel

/-- R125: a cue whose in is the segment's last reel unit is not taken as that unit begins, and the comparator stays. -/
theorem test_last_unit_cue : let t := runT0 10 10 (titles 1 0 0)
    (bankGet t.text.display 0, t.text.t0.comparator) = (none, some 0) := by decide +kernel

/-- A caption cue of 3 bytes from 10 up to 20, and the ring with so many bytes free. -/
def caption : Displayed := ⟨{ titled 5 with text := [1, 2, 3] }, false, false⟩
def ringFree (n : Nat) : State := State.reset.withCaption ⟨List.replicate (1024 - n) 0, none⟩

theorem witness_captions : (State.reset.withCaption ⟨[2, 3], none⟩).caption.ring = 2 :: [3] ∧
    State.reset.caption.ring = [] ∧ (ringFree 9).caption.ring.length = 1015 ∧ 6 + caption.cue.text.length = 9 ∧
    (ringFree 4).caption.ring.length + 4 = 1024 ∧ 1024 < (ringFree 3).caption.ring.length + 4 := by decide +kernel

/-- R134, R135: a SHOW in 9, 8 and 7 free bytes; a CLEAR in 4 and 3. -/
theorem test_captions : ((queueShow caption (ringFree 9)).2.caption.ring.drop 1015 = [2, 0, 5, 0, 3, 1, 2, 3, 3]) ∧
    ((queueShow caption (ringFree 8)).2.caption.ring.drop 1016 = [2, 0, 5, 1, 2, 1, 2, 3]) ∧
    ((queueShow caption (ringFree 7)).2.caption.ring.length = 1017) ∧
    ((queueClear 5 (ringFree 4)).caption.ring.drop 1020 = [2, 0, 5, 4]) ∧
    ((queueClear 5 (ringFree 3)).caption.ring.length = 1021) := by decide +kernel

/-- R136, R137: one cue in display and one withdrawn, as reel units 19 and 20 begin, and at a resume. -/
theorem test_caption_list : let s := State.reset.withText { State.reset.text with captions := [caption, { caption with withdrawn := true }] }
    ((runT1 30 19 false s).text.captions.length, (runT1 30 19 false s).caption.ring) = (2, []) ∧
    ((runT1 30 20 false s).text.captions.length, (runT1 30 20 false s).caption.ring) = (0, [2, 0, 5, 4]) ∧
    (runT1 30 19 true s).caption.ring = [2, 0, 5, 0, 3, 1, 2, 3, 3] ∧
    (withdrawCaptions s).caption.ring = [2, 0, 5, 4] := by decide +kernel

/-- R61: byte 41h on the line, start bit first, least significant bit next. -/
theorem test_caption_frame : captionFrame 0x41 = [.start, .data true, .data false, .data false, .data false, .data false,
    .data false, .data true, .data false, .stop] := by decide

/-- PAUSED under a limit of 1 s at a number of pause steps, the fraction at a value. -/
def pausedAt (steps fraction : Nat) : State :=
  ((inState .paused plain 3).withSeq { (inState .paused plain 3).seq with pauseSteps := steps, pauseLimit := 1 }).withClock
    ⟨true, 9, fraction⟩

theorem witness_divider : (pausedAt 255 0).clock.fraction < 255 ∧ (pausedAt 255 0).seq.pend = PendingControls.none ∧
    0 < (pausedAt 255 0).seq.pauseLimit ∧ 256 * (pausedAt 255 0).seq.pauseLimit ≤ (pausedAt 255 0).seq.pauseSteps + 1 ∧
    (pausedAt 0 255).clock.fraction = 255 ∧ (mainPowerLoss State.reset).supplies.backup = true ∧
    (State.reset.withClock ⟨true, 9, 255⟩).seq.state = .idle := by decide

/-- R21, R94: a step below the limit, the step that reaches it, and a booth second in PAUSED. -/
theorem test_divider : (let t := run .dividerStep (pausedAt 254 0)
    t.seq.pauseSteps = 255 ∧ t.seq.pend.timeout = false) ∧ (run .pauseTimeout (pausedAt 255 0)).seq.pend.timeout = true ∧
    (let t := run .dividerStep (pausedAt 0 255)
    t.seq.pauseSteps = 1 ∧ t.clock = ⟨true, 10, 0⟩ ∧ t.lane.pace = none) := by decide +kernel

/-- R91: an entry counted to its figure is SPENT; R93: at its window's end a LOADED one lapses. -/
theorem test_release_and_lapse : (bankGet (releaseAll (licensed .bound 2 2)).licences 63).state = .spent ∧
    (bankGet (lapseCheck ((licensed .loaded 0 0).withClock ⟨true, 9, 0⟩)).licences 63).state = .lapsed ∧
    (bankGet (lapseCheck ((licensed .loaded 0 0).withClock ⟨true, 8, 0⟩)).licences 63).state = .loaded := by decide +kernel

theorem witness_line_millisecond : (∀ i, i < 8 → (bankGet State.reset.lines.outputs i).spanDue = false) ∧
    (∀ i, i < 8 → (bankGet State.reset.lines.inputs i).edgeDue = false) ∧ State.reset.link.downDue = false := by
  decide +kernel

theorem witness_span_end : (bankGet (lined 7 .pulse .delaying 0).lines.outputs 7).activity = .delaying ∧
    (bankGet (lined 7 .pulse .on 0).lines.outputs 7).config.mode ≠ .train ∧
    (bankGet (lined 7 .train .on 0).lines.outputs 7).pulsesDone + 1 < (bankGet (lined 7 .train .on 0).lines.outputs 7).config.count ∧
    (bankGet (lined 7 .train .off 0).lines.outputs 7).spanRemaining = 0 ∧
    (let x := { bankGet (lined 7 .train .on 0).lines.outputs 7 with pulsesDone := 1 }
    x.pulsesDone + 1 = x.config.count ∧ x.config.count ≤ 254) := by decide +kernel

/-- An input 7 that has read high for its debounce of 0 and one sample more. -/
def edged : State := setInput 7 { bankGet State.reset.lines.inputs 7 with
  config := ⟨false, .rising, 0, .none, true⟩
  pinHigh := true
  stable := 1 } State.reset

theorem witness_input_edge : (bankGet edged.lines.inputs 7).edgeDue = true := by decide +kernel
theorem test_input_edge : (run (.inputEdge 7) edged).seq.held = 0x80#8 ∧
    (bankGet (run (.inputEdge 7) edged).lines.inputs 7).unread = true := by decide +kernel

/-- A plaintext unit: key id 0, its length, the body and its frame check (R58, R69). -/
def unitBytes (body : List Byte) : List Byte := be 16 0 ++ be 4 body.length ++ body ++ be 4 (crc32 body).toNat

/-- PLAYING with unit 4 of entry 0 arriving whole on P0, then taken by the engine. -/
def arrived : State := run (.essence (cellOf 1 0xC0 0 0 4 (unitBytes [1, 2]))) (playing.withTrack { playing.track with
  slots := bankSet playing.track.slots 0 ⟨some 0, .vacant⟩ } |>.withShowList listed.showList)
def taken : State := run .unpackingEngineTake arrived

theorem witness_engine : arrived.engine = none ∧ firstWaiting arrived (eligible arrived) = some ⟨(0, .unit 4), 0, 0, 4⟩ ∧
    (taken.engine.map (·.abandoned)) = some false ∧ unitContent taken 0 0 4 .unpacking = some (26, unitBytes [1, 2]) := by
  decide +kernel

theorem witness_engine_abandons : let s := taken.withEngine (taken.engine.map (fun j => { j with abandoned := true }))
    s.supplies.main = true ∧ s.engine.map (·.abandoned) = some true := by decide +kernel

/-- R66, R72, R75: the unit completes READY, and the next boundary outputs it. -/
theorem test_engine_completes : (queueOf (run .unpackComplete taken) 0).map (fun u => (u.state, u.content)) =
    [(.ready, [1, 2])] := by decide +kernel
theorem test_unit_output : (run .unitBoundary (run .unpackComplete taken)).picture.records.map (fun r => (r.content, r.source)) =
    [(.unit [1, 2], some (0, 4))] := by decide +kernel

/-- A T0 list of one cue from 10 up to 20, UNPACKING in the store of a segment with subtitles on, offset 3 in progress. -/
def listBytes : List Byte := [1, 0, 0, 1] ++ be 2 0 ++ be 4 10 ++ be 4 20 ++ [0, 0, 0, 255, 0, 0, 0, 0]
def unpackingList : State :=
  ((inState .playing { plain with subtitles := true } 3).withText { State.reset.text with
    store := [⟨0, 4, 0, none, (unitBytes listBytes).length, .unpacking, none, false, unitBytes listBytes, none⟩] }).withEngine
      (some ⟨4, 0, 0, false, 0, none, none, false, 0, .r24, .r48k⟩)

theorem witness_engine_resource : unitContent unpackingList 4 0 0 .unpacking = some (46, unitBytes listBytes) ∧
    resourceKind 4 0 listBytes = some .cueList ∧ (tableOf unpackingList.text 4).loaded = false ∧
    lastBegun unpackingList.seq = some 3 ∧ (∀ x ∈ (listCues 4 listBytes).1, 3 < x.inPoint ∨ x.outPoint ≤ 3) := by
  decide +kernel

/-- R122, R126: the list becomes READY with its attributes and is loaded late. -/
theorem test_resource_completes : let t := run .unpackComplete unpackingList
    t.text.store.map (fun r => (r.state, r.kind, r.attrs)) = [(.ready, some .cueList, some ⟨false, none, none, none⟩)] ∧
      t.text.t0.comparator = some 0 ∧ t.text.t0.loaded = true ∧
      t.reports.queue.map (fun x => (x.kind, x.detail1, x.detail2)) = [(.startCold, 620, 1), (.resourceLate, 4, 0)] := by
  decide +kernel

theorem witness_return_lane : (formPace State.reset).lane.pace.isSome = true ∧ State.reset.lane.sending = none ∧
    (run .go (asked 21 [] State.reset)).mgmt.replies = [⟨7, 21, .state, []⟩] ∧ State.reset.reports.queue ≠ [] ∧
    (run .cellSendStart State.reset).lane.sending.isSome = true ∧ (run .cellSendStart State.reset).reports.queue = [] ∧
    0 < (State.reset.withReports { State.reset.reports with lost := 3 }).reports.lost := by decide +kernel

theorem witness_starts : (run .backupSupplyLoss State.reset).supplies.retainedValid = false ∧
    shown.supplies.retainedValid = true ∧ shown.recorder.status = .opened ∧ State.reset.recorder.status ≠ .opened := by
  decide +kernel

/-- R191, R166: a warm start closes the showing INTERRUPTED and its first report is START_WARM with 1 and the number. -/
theorem test_warm_start : (run .warmStart shown).recorder.record.endCause = some .interrupted ∧
    (run .warmStart shown).reports.queue.map (fun x => (x.kind, x.detail1, x.detail2)) =
      [(.startWarm, 1, 1), (.showingEnd, 5, 0)] := by decide +kernel

/-- R43: the first bad header raises LINK_ERROR, the next does not. -/
theorem test_link_error : let s := run (.invalidCell ⟨Vector.replicate 14 0, []⟩) State.reset
    s.reports.queue.map (·.kind) = [.startCold, .linkError] ∧
      (run (.invalidCell ⟨Vector.replicate 14 0, []⟩) s).reports.queue.length = 2 := by decide +kernel

theorem witness_lane : (cellOf 0 0 0 0 0 []).valid = true ∧ (cellOf 0 0 0 0 0 []).kind = 0 ∧
    State.reset.link.downDue = false ∧ (⟨Vector.replicate 14 0, []⟩ : Cell).valid = false ∧
    (State.reset.withLink { State.reset.link with laneUp := true, laneTimer := 100 }).link.downDue = true := by
  decide +kernel

theorem witness_essence : let s := playing.withTrack { playing.track with
      slots := bankSet playing.track.slots 0 ⟨some 0, .vacant⟩ } |>.withShowList listed.showList
    let c := cellOf 1 0xC0 0 0 4 (unitBytes [1, 2])
    c.valid = true ∧ c.kind = 1 ∧ c.unitStart = true ∧ (bankGet s.track.slots c.slot).expected = some c.seqNumber ∧
      assemblyOf s c.slot ≠ .opened ∧ essenceCheck c.slot c.segment c.unitNumber s = none ∧ queueOf s c.slot = [] := by
  decide +kernel

theorem witness_resource : let g : Segment := { plain with subtitles := true }
    let s := (inState .playing g 3).withTrack { State.reset.track with
      slots := bankSet State.reset.track.slots 4 ⟨some 65535, .vacant⟩ } |>.withShowList listed.showList
    let c := cellOf 2 0x84 0 65535 65535 (List.replicate 1024 1)
    c.valid = true ∧ c.kind = 2 ∧ c.unitStart = true ∧ c.unitEnd = false ∧
      (bankGet s.track.slots c.slot).expected = some c.seqNumber ∧ assemblyOf s c.slot ≠ .opened ∧
      resourceCheck c.slot c.segment s = none ∧ findResource s c.segment c.slot c.unitNumber = none ∧
      s.text.store = [] ∧ 0 < freeEntries s ∧ c.payload.length ≤ freeBytes s ∧
      (run (.resource c) s).text.store.map (·.storedLen) = [1024] := by decide +kernel

theorem witness_manage : (cellOf 3 0 0 0 0 [0, 7, 21, 0]).valid = true ∧ (cellOf 3 0 0 0 0 [0, 7, 21, 0]).kind = 3 ∧
    (run (.manage (cellOf 3 0 0 0 0 [0, 7, 21, 0])) State.reset).mgmt.queue = [⟨7, 21, []⟩] := by decide +kernel

/-! ### States that meet the invariants -/

theorem bounded_shown : Bounded shown := by constructor <;> decide +kernel
theorem counts_shown : CountsInRange shown := by constructor <;> decide +kernel
theorem mask_shown : MaskLegal shown.reports := by constructor <;> decide +kernel

theorem witness_bounds : Bounded shown ∧ CountsInRange shown ∧ MaskLegal shown.reports ∧
    (match step shown with | .next _ => true | .fault f => nomatch f | .refused _ => false) = true :=
  ⟨bounded_shown, counts_shown, mask_shown, by decide +kernel⟩

theorem witness_delay_rings : RingsHold (run .sampleInstant State.reset).sound := by constructor <;> decide +kernel

theorem witness_log : LogOrdered ended.recorder := by constructor <;> decide +kernel

theorem witness_licences : LicencesHold shown := by
  have h : ∀ x ∈ shown.licences.toList, x = Licence.emptied 0 := by decide +kernel
  refine ⟨fun x hx => ?_, fun x hx _ => ?_, fun _ _ x hx => ?_, by decide +kernel⟩
  · rw [h x hx]
    intro hp
    exact absurd hp (by decide)
  · rw [h x hx]
    rfl
  · rw [h x hx]
    decide

theorem witness_sequencer : SequencerHolds shown where
  durations := by decide +kernel
  idle := by decide +kernel
  running := fun _ => ⟨by decide +kernel, contextFor listed 0, by decide +kernel⟩
  ticks := by decide +kernel
  pausedFrom := by decide +kernel

/-! ### Values in range for the codings -/

theorem witness_entry_body : Entry.inRange { Entry.emptied 65535 with
    cls := .feature, duration := 16777215, countPoint := some 0, alternate := some 127, cond := .flag 7 true,
    leadGap := 60000 } = true := by decide

theorem witness_other_bodies : AutoCue.inRange ⟨.finish 16777215, .flag 7 false, .line 7 .stop, 65535⟩ = true ∧
    Profile.inRange { Profile.default with syncDelay := 2000 } = true ∧
    OutConfig.inRange ⟨.train, true, 65535, 1, 255, 65535, 1, some (7, true)⟩ = true ∧
    InConfig.inRange ⟨true, .both, 255, .flag 1 2 3, true⟩ = true := by decide +kernel

/-- A return cell of the longest payload. -/
theorem witness_return_cell : (List.replicate 1024 (1 : Byte)).length ≤ 1024 ∧
    (returnCell 6 127 65535 [1, 2]).checkOk = true := by decide +kernel

end Sys2Proof.Tests
end

section
/-! PROOF. CLEAR LIST (R3): what the show list holds after it, what it answers in IDLE and outside it, and O14. -/

namespace Sys2Proof.Machine

/-- The show list as R3 leaves it: every entry at the defaults of R1, its generation raised. -/
def clearedList (l : Vector Entry 128) : Vector Entry 128 :=
  bankMap (fun e => Entry.emptied (nextGeneration e.generation)) l

theorem bankGet_clearedList (l : Vector Entry 128) {i : Nat} (h : i < 128) :
    bankGet (clearedList l) i = Entry.emptied (nextGeneration (bankGet l i).generation) :=
  bankGet_map _ l i h

theorem clearList_of_idle {s : State} (p : List Byte) (h : s.seq.state = .idle) :
    clearList p s = accept [] (s.withShowList (clearedList s.showList)) :=
  if_neg (not_not_intro h)

theorem clearList_of_not_idle {s : State} (p : List Byte) (h : s.seq.state ≠ .idle) :
    clearList p s = refuse .state s :=
  if_pos h

/-- A CLEAR LIST of the right length at the head of the request queue is performed and answered. -/
theorem exec_clearList_head {s : State} {r : Request} {rest : List Request} (h : HeadIs s 8 r rest)
    (hp : r.params = []) : exec .clearList s = .next (answered r (clearList r.params s)) :=
  performs_head h 0 (List.length_eq_zero_iff.mpr hp) clearList

/-- Settles O14, by the two branches of `clearList`: IDLE, and every other Sequencer state. -/
theorem clearListEmptiesEveryEntry : Obligations.clear_list_empties_every_entry := by
  intro s r rest hhead hparams
  have hexec := exec_clearList_head hhead hparams
  constructor
  · intro hidle
    rw [clearList_of_idle _ hidle, answered_eq] at hexec
    exact ⟨clearedList s.showList, hexec, fun _ hi => bankGet_clearedList s.showList hi⟩
  · intro hbusy
    rw [clearList_of_not_idle _ hbusy, answered_eq] at hexec
    exact hexec

end Sys2Proof.Machine
end

section
/-! PROOF. READ KEY (R86): the bytes of an EMPTY entry, what an index within and beyond the table answers, and O11. -/

namespace Sys2Proof.Machine

/-- The number 0 is spelled in zero bytes, whatever the width. -/
theorem be_zero (w : Nat) : be w 0 = List.replicate w 0 := by
  induction w with
  | zero => rfl
  | succ w ih => simp [be, ih, List.replicate_succ]

/-- An entry with the fields of R79 reads as 50 zero bytes and its generation. -/
theorem licenceBytes_emptied (g : Nat) : licenceBytes (Licence.emptied g) = List.replicate 50 0 ++ be 2 g := by
  have hid : idBytes 0 = List.replicate 16 0 := be_zero 16
  have hkinds : kindsByte ⟨false, false, false⟩ = List.replicate 1 0 := rfl
  simp only [licenceBytes, Licence.emptied, LicState.code, hid, hkinds, be_zero, List.replicate_append_replicate,
    Nat.reduceAdd]

/-- Under `LicencesHold` an EMPTY entry of the table has the fields of R79. -/
theorem LicencesHold.eq_emptied {s : State} (h : LicencesHold s) {i : Nat} (hi : i ≤ 63)
    (he : (bankGet s.licences i).state = .empty) :
    bankGet s.licences i = Licence.emptied (bankGet s.licences i).generation :=
  h.empties _ (bankGet_mem s.licences i (Nat.lt_succ_of_le hi)) he

theorem readKey_within {p : List Byte} (s : State) (h : byteAt p 0 ≤ 63) :
    readKey p s = accept (licenceBytes (bankGet s.licences (byteAt p 0))) s :=
  if_neg (Nat.not_lt.mpr h)

theorem readKey_beyond {p : List Byte} (s : State) (h : 63 < byteAt p 0) :
    readKey p s = refuseIndex .noSuchIndex (byteAt p 0) s :=
  if_pos h

/-- A READ KEY of the right length at the head of the request queue is performed and answered. -/
theorem exec_readKey_head {s : State} {r : Request} {rest : List Request} (h : HeadIs s 5 r rest)
    (hp : r.params.length = 1) : exec .readKey s = .next (answered r (readKey r.params s)) :=
  performs_head h 1 hp readKey

/-- R86, the accepted case: the answer is the entry's bytes, and the rest of the state stands. -/
theorem exec_readKey_within {s : State} {r : Request} {rest : List Request} (h : HeadIs s 5 r rest)
    (hp : r.params.length = 1) (hi : byteAt r.params 0 ≤ 63) :
    exec .readKey s = .next (replied r .ok (licenceBytes (bankGet s.licences (byteAt r.params 0))) s) := by
  rw [exec_readKey_head h hp, readKey_within s hi]
  rfl

/-- R86, the refused case: the index is echoed. -/
theorem exec_readKey_beyond {s : State} {r : Request} {rest : List Request} (h : HeadIs s 5 r rest)
    (hp : r.params.length = 1) (hi : 63 < byteAt r.params 0) :
    exec .readKey s = .next (replied r .noSuchIndex (be 2 (byteAt r.params 0)) s) := by
  rw [exec_readKey_head h hp, readKey_beyond s hi]
  rfl

/-- Settles O11, by the two branches of `readKey`; an EMPTY entry is the first branch at the fields of R79. -/
theorem readKeyReturnsEntry : Obligations.read_key_returns_entry := by
  intro s r rest hhead hparams i x
  refine ⟨fun hi => exec_readKey_within hhead hparams hi, fun hs hi hempty => ?_,
    fun hi => exec_readKey_beyond hhead hparams hi⟩
  have hbytes : licenceBytes x = List.replicate 50 0 ++ be 2 x.generation :=
    (congrArg licenceBytes (hs.eq_emptied hi hempty)).trans (licenceBytes_emptied x.generation)
  rw [exec_readKey_within hhead hparams hi, hbytes]

end Sys2Proof.Machine
end

section
/-! PROOF. SET REPORT MASK (R184): the bits of the mask as stored, a masked report raised (R188), and O29. -/

namespace Sys2Proof.Machine

/-! ### The mask as stored -/

/-- The full mask has the bits of the 23 report kinds and no other. -/
theorem getLsbD_fullMask (k : Nat) : ReportUnit.fullMask.getLsbD k = decide (k < 23) := by
  have hones : ReportUnit.fullMask = (BitVec.allOnes 23).setWidth 32 := rfl
  rw [hones, BitVec.getLsbD_setWidth, BitVec.getLsbD_allOnes, ← Bool.decide_and, decide_eq_decide]
  omega

/-- The bit that is forced is REPORTS_LOST's alone. -/
theorem getLsbD_reportsLostBit (k : Nat) : (0x00400000#32).getLsbD k = decide (k = 22) := by
  have hpow : 0x00400000#32 = BitVec.twoPow 32 22 := rfl
  rw [hpow, BitVec.getLsbD_twoPow, ← Bool.decide_and, decide_eq_decide]
  omega

/-- Each bit of the mask as stored: both corrections of R184 in one equation. -/
theorem getLsbD_storedMask (m : BitVec 32) (k : Nat) :
    (storedMask m).getLsbD k = (m.getLsbD k && decide (k < 23) || decide (k = 22)) := by
  rw [storedMask, BitVec.getLsbD_or, BitVec.getLsbD_and, getLsbD_fullMask, getLsbD_reportsLostBit]

theorem storedMask_reportsLost (m : BitVec 32) : (storedMask m).getLsbD 22 = true := by
  simp [getLsbD_storedMask]

theorem storedMask_unnamed (m : BitVec 32) {k : Nat} (h : 23 ≤ k) : (storedMask m).getLsbD k = false := by
  have hk : ¬ k < 23 := by omega
  have hne : k ≠ 22 := by omega
  simp [getLsbD_storedMask, hk, hne]

theorem storedMask_carried (m : BitVec 32) {k : Nat} (h : k < 22) : (storedMask m).getLsbD k = m.getLsbD k := by
  have hk : k < 23 := by omega
  have hne : k ≠ 22 := by omega
  simp [getLsbD_storedMask, hk, hne]

/-! ### A masked report -/

/-- R188: the queue offered a report whose kind is masked stays as it is. -/
theorem offer_of_masked {u : ReportUnit} {r : Report} (h : u.mask.getLsbD r.kind.code = false) : u.offer r = u :=
  if_pos h

/-- R188: a masked report raised leaves no trace in the Report Unit, neither queued nor counted as lost. -/
theorem raise_reports_of_masked {s : State} {kind : ReportKind} (a b : Nat)
    (h : s.reports.mask.getLsbD kind.code = false) : (raise kind a b s).reports = s.reports :=
  offer_of_masked (r := stamped kind (showingNow s) a b s) h

/-! ### The request -/

/-- A SET REPORT MASK of the right length at the head of the request queue stores the corrected mask and answers it. -/
theorem exec_setReportMask_head {s : State} {r : Request} {rest : List Request} (h : HeadIs s 30 r rest)
    (hp : r.params.length = 4) :
    let m := storedMask (BitVec.ofNat 32 (field r.params 0 4))
    exec .setReportMask s = .next (replied r .ok (be 4 m.toNat) (s.withReports { s.reports with mask := m })) :=
  performs_head h 4 hp setReportMask

/-- Settles O29, by the equation of each bit of the mask as stored and the queue's refusal of a masked report. -/
theorem reportMaskStoredAndTested : Obligations.report_mask_stored_and_tested := by
  intro s r rest hhead hparams
  refine ⟨_, exec_setReportMask_head hhead hparams, storedMask_reportsLost _, fun _ => storedMask_unnamed _,
    fun _ => storedMask_carried _, fun kind a b t hstored hmasked => ?_⟩
  have hclear : t.reports.mask.getLsbD kind.code = false := hstored ▸ hmasked
  exact raise_reports_of_masked a b hclear

end Sys2Proof.Machine
end

section
/-! PROOF. What a step can do, said once: the state a request's block answers with (`Granted`), the state a command or a
media tick leaves (`Acts`), and the inversion of `step` into them; with it O1, O3, O4, O5 and O6. -/

namespace Sys2Proof.Machine

/-! ### The rows that perform a request -/

/-- The row of a request kind: the heads it performs, and what its block answers. RESET is not among them, since it
replaces the queue and the blocks after its answer. -/
def requestRow : Instr → Option ((Request → Bool) × (List Byte → State → Answer))
  | .badKind => some (fun r => !knownKind r.kind, fun _ s => refuse .badKind s)
  | .readStatus => some (ofKind 1, sized 0 readStatus)
  | .setClock => some (ofKind 2, sized 5 setClock)
  | .loadKey => some (ofKind 3, sized 91 loadKey)
  | .eraseKey => some (ofKind 4, sized 4 eraseKey)
  | .readKey => some (ofKind 5, sized 1 readKey)
  | .writeEntry => some (ofKind 6, sized 51 writeEntry)
  | .readEntry => some (ofKind 7, sized 1 readEntry)
  | .clearList => some (ofKind 8, sized 0 clearList)
  | .writeCue => some (ofKind 9, sized 14 writeCue)
  | .readCue => some (ofKind 10, sized 1 readAutoCue)
  | .writeProfile => some (ofKind 11, sized 60 writeProfile)
  | .readProfile => some (ofKind 12, sized 1 readProfile)
  | .writeFaderLaw => some (ofKind 13, writeFaderLaw)
  | .setFader => some (ofKind 14, sized 1 setFader)
  | .setMute => some (ofKind 15, sized 1 setMute)
  | .configureOutputLine => some (configureRow 0, configured 0 15 configureOutputLine)
  | .configureInputLine => some (configureRow 1, configured 1 10 configureInputLine)
  | .lineActionSet => some (actionRow .set, sized 2 (lineAction .set))
  | .lineActionClear => some (actionRow .clear, sized 2 (lineAction .clear))
  | .lineActionToggle => some (actionRow .toggle, sized 2 (lineAction .toggle))
  | .lineActionTrigger => some (actionRow .trigger, sized 2 (lineAction .trigger))
  | .lineActionStop => some (actionRow .stop, sized 2 (lineAction .stop))
  | .readLine => some (ofKind 18, sized 2 readLine)
  | .readCapture => some (ofKind 19, sized 1 readCapture)
  | .cueShow => some (ofKind 20, sized 0 cueShow)
  | .go => some (ofKind 21, sized 0 (asControl takeGo))
  | .pause => some (ofKind 22, sized 0 (asControl takePause))
  | .resume => some (ofKind 23, sized 0 (asControl takeResume))
  | .stop => some (ofKind 24, sized 0 (asControl takeStop))
  | .setFlags => some (ofKind 25, sized 3 setFlags)
  | .setLimits => some (ofKind 26, sized 4 setLimits)
  | .readShowing => some (ofKind 27, sized 1 readShowing)
  | .readLog => some (ofKind 28, sized 4 readLog)
  | .markCollected => some (ofKind 29, sized 4 markUpTo)
  | .setReportMask => some (ofKind 30, sized 4 setReportMask)
  | _ => none

/-- A row of a request kind performs the head of the request queue where it is one of its own. -/
theorem exec_requestRow {c : Instr} {is : Request → Bool} {f : List Byte → State → Answer}
    (h : requestRow c = some (is, f)) (s : State) : exec c s = .next (perform is f s) := by
  cases c <;> cases h <;> rfl

/-- Every request row but RESET has its entry in the table. -/
theorem requestRow_of_mem {c : Instr} (h : c ∈ requestRows) : c = .reset ∨ ∃ x, requestRow c = some x := by
  simp only [requestRows, List.mem_cons, List.not_mem_nil, or_false] at h
  rcases h with rfl | h <;> first | exact .inr ⟨_, rfl⟩ | skip
  iterate 35 (rcases h with rfl | h <;> first | exact .inr ⟨_, rfl⟩ | skip)
  exact .inl h

theorem headRequest_full {is : Request → Bool} {s : State}
    (h : Config.replyPlaces ≤ s.mgmt.replies.length ∨ s.mgmt.queue = []) : headRequest is s = none := by
  unfold headRequest
  rcases h with h | h
  · cases s.mgmt.queue with
    | nil => rfl
    | cons r rest => simp [Nat.not_lt.mpr h]
  · rw [h]

theorem headRequest_unpowered {is : Request → Bool} {s : State} (h : s.supplies.main = false) :
    headRequest is s = none := by
  unfold headRequest
  cases s.mgmt.queue with
  | nil => rfl
  | cons r rest => simp [powered, h]

theorem execReset_waits {s : State} (h : headRequest (ofKind 31) s = none) : execReset s = .next s := by
  simp [execReset, h]

/-- A request row that finds no head to perform changes nothing. -/
theorem exec_requestRows_waits {c : Instr} {s : State} (hc : c ∈ requestRows)
    (h : ∀ is : Request → Bool, headRequest is s = none) : exec c s = .next s := by
  obtain rfl | ⟨⟨is, f⟩, hrow⟩ := requestRow_of_mem hc
  · exact execReset_waits (h _)
  · rw [exec_requestRow hrow, perform_waits (h is)]

/-! ### What a request's block answers -/

/-- The states a request's block can answer with: the state as it stood, or one of the changes of 10.4. -/
inductive Granted (s : State) : State → Prop
  | unchanged : Granted s s
  | status : Granted s (statusCleared s)
  | clock (n k : Nat) (hk : k ≤ 255) : Granted s (lapseCheck (s.withClock ⟨true, n, k⟩))
  | key (p : List Byte) (key : Id128) (i : Nat) :
      Granted s (s.withLicences (bankSet s.licences i (loadedEntry p key (bankGet s.licences i).generation)))
  | erased (i g : Nat) : Granted s (s.withLicences (bankSet s.licences i (Licence.emptied g)))
  | entry (i : Nat) (e : Entry) (he : e.fieldsOk = true) :
      Granted s (s.withShowList (bankSet s.showList i (storedEntry e)))
  | cleared (l : Vector Entry 128) (hl : ∀ e ∈ l.toList, e.duration = 1) : Granted s (s.withShowList l)
  | cues (x : Vector AutoCue 256) : Granted s (s.withCues x)
  | sound (q : SoundEngine) (hr : q.rings = s.sound.rings) (hw : q.writeIndex = s.sound.writeIndex) :
      Granted s (s.withSound q)
  | lines (x : LineController) : Granted s (s.withLines x)
  | input (n : Nat) (c : InConfig) : Granted s (configureInput n c s)
  | opened (l : List Nat) (p : Nat) (hr : cueRefusal s = none) (hs : selectAt s.showList s.seq.flags 0 = (l, some p)) :
      Granted s (cueAccepted l p s)
  | go : Granted s (takeGo s).2
  | pause : Granted s (takePause s).2
  | resume : Granted s (takeResume s).2
  | stop : Granted s (takeStop s).2
  | flags (x y z : Mask8) : Granted s (setFlagsBy x y z s)
  | limits (a b : Nat) : Granted s (s.withSeq (s.seq.limited a b))
  | starving (a b : Nat) : Granted s (starve (s.withSeq (s.seq.limited a b)))
  | marked (n : Nat) :
      Granted s (s.withRecorder ({ s.recorder with log := (markCollected n s.recorder.log).1 } : Recorder).rearmed)
  | mask (m : BitVec 32) : Granted s (s.withReports { s.reports with mask := storedMask m })

theorem sized_granted {n : Nat} {f : List Byte → State → Answer} {s : State} (h : ∀ p, Granted s (f p s).after)
    (p : List Byte) : Granted s (sized n f p s).after := by
  unfold sized
  split
  · exact h p
  · exact .unchanged

theorem byteAt_le (p : List Byte) (i : Nat) : byteAt p i ≤ 255 := by
  have h : (p.getD i 0).toNat < 2 ^ 8 := BitVec.isLt _
  unfold byteAt
  omega

theorem setClock_granted (p : List Byte) (s : State) : Granted s (setClock p s).after := by
  have hset : Granted s (lapseCheck (s.withClock ⟨true, field p 0 4, byteAt p 4⟩)) := .clock _ _ (byteAt_le p 4)
  unfold setClock
  split
  · exact .unchanged
  · split
    · exact .unchanged
    · simpa only [accept] using hset

theorem loadKey_granted (p : List Byte) (s : State) : Granted s (loadKey p s).after := by
  unfold loadKey
  repeat' split
  all_goals first | exact .unchanged | exact .key p _ _

theorem eraseKey_granted (p : List Byte) (s : State) : Granted s (eraseKey p s).after := by
  unfold eraseKey
  dsimp only
  repeat' split
  all_goals first | exact .unchanged | exact .erased _ _

theorem readKey_granted (p : List Byte) (s : State) : Granted s (readKey p s).after := by
  unfold readKey
  split <;> exact .unchanged

theorem writeEntry_granted (p : List Byte) (s : State) : Granted s (writeEntry p s).after := by
  unfold writeEntry
  dsimp only
  split
  · exact .unchanged
  · split
    · exact .unchanged
    · rename_i hok
      repeat' split
      · exact .unchanged
      · exact .unchanged
      · refine .entry _ _ ?_
        simp only [Bool.not_eq_false, Bool.and_eq_true] at hok
        exact hok.2

theorem readEntry_granted (p : List Byte) (s : State) : Granted s (readEntry p s).after := by
  unfold readEntry
  dsimp only
  split <;> exact .unchanged

theorem clearList_granted (p : List Byte) (s : State) : Granted s (clearList p s).after := by
  unfold clearList
  split
  · exact .unchanged
  · refine .cleared _ fun e he => ?_
    obtain ⟨x, -, rfl⟩ := mem_bankMap.mp he
    rfl

theorem writeCue_granted (p : List Byte) (s : State) : Granted s (writeCue p s).after := by
  unfold writeCue
  dsimp only
  repeat' split
  all_goals first | exact .unchanged | exact .cues _

theorem writeProfile_granted (p : List Byte) (s : State) : Granted s (writeProfile p s).after := by
  unfold writeProfile
  dsimp only
  repeat' split
  all_goals first | exact .unchanged | exact .sound _ rfl rfl

theorem readProfile_granted (p : List Byte) (s : State) : Granted s (readProfile p s).after := by
  unfold readProfile
  dsimp only
  split <;> exact .unchanged

theorem writeFaderLaw_granted (p : List Byte) (s : State) : Granted s (writeFaderLaw p s).after := by
  unfold writeFaderLaw
  dsimp only
  split
  · exact .unchanged
  · exact .sound _ rfl rfl

theorem setFader_granted (p : List Byte) (s : State) : Granted s (setFader p s).after :=
  .sound { s.sound with fader := min 100 (byteAt p 0) } rfl rfl

theorem setMute_granted (p : List Byte) (s : State) : Granted s (setMute p s).after := by
  unfold setMute
  split
  · exact .unchanged
  · exact .sound _ rfl rfl

theorem configured_granted {selector n : Nat} {f : List Byte → State → Answer} {s : State}
    (h : ∀ p, Granted s (f p s).after) (p : List Byte) : Granted s (configured selector n f p s).after := by
  unfold configured
  split
  · exact .unchanged
  · exact sized_granted h p

theorem configureOutputLine_granted (p : List Byte) (s : State) : Granted s (configureOutputLine p s).after := by
  unfold configureOutputLine
  dsimp only
  repeat' split
  all_goals first | exact .unchanged | exact .lines _

theorem configureInputLine_granted (p : List Byte) (s : State) : Granted s (configureInputLine p s).after := by
  unfold configureInputLine
  dsimp only
  repeat' split
  all_goals first | exact .unchanged | exact .input _ _

theorem lineAction_granted (a : LineAct) (p : List Byte) (s : State) : Granted s (lineAction a p s).after := by
  unfold lineAction
  dsimp only
  repeat' split
  all_goals first | exact .unchanged | exact .lines _

theorem readLine_granted (p : List Byte) (s : State) : Granted s (readLine p s).after := by
  unfold readLine
  dsimp only
  repeat' split
  all_goals exact .unchanged

theorem readCapture_granted (p : List Byte) (s : State) : Granted s (readCapture p s).after := by
  unfold readCapture
  dsimp only
  split
  · exact .unchanged
  · exact .lines _

theorem cueShow_granted (p : List Byte) (s : State) : Granted s (cueShow p s).after := by
  unfold cueShow
  split
  · exact .unchanged
  · rename_i hr
    dsimp only
    split
    · rename_i k hk
      exact .opened _ k hr (Prod.ext rfl hk)
    · exact .unchanged

theorem setLimits_granted (p : List Byte) (s : State) : Granted s (setLimits p s).after := by
  unfold setLimits
  dsimp only [accept]
  split
  · exact .starving _ _
  · exact .limits _ _

theorem readLog_granted (p : List Byte) (s : State) : Granted s (readLog p s).after := by
  unfold readLog
  split <;> exact .unchanged

/-- Whatever a request row answers, its block granted it. -/
theorem requestRow_granted {c : Instr} {is : Request → Bool} {f : List Byte → State → Answer}
    (h : requestRow c = some (is, f)) (s : State) (p : List Byte) : Granted s (f p s).after := by
  cases c <;> cases h
  case badKind => exact .unchanged
  case readStatus => exact sized_granted (fun _ => .status) p
  case setClock => exact sized_granted (fun p => setClock_granted p s) p
  case loadKey => exact sized_granted (fun p => loadKey_granted p s) p
  case eraseKey => exact sized_granted (fun p => eraseKey_granted p s) p
  case readKey => exact sized_granted (fun p => readKey_granted p s) p
  case writeEntry => exact sized_granted (fun p => writeEntry_granted p s) p
  case readEntry => exact sized_granted (fun p => readEntry_granted p s) p
  case clearList => exact sized_granted (fun p => clearList_granted p s) p
  case writeCue => exact sized_granted (fun p => writeCue_granted p s) p
  case readCue => exact sized_granted (fun _ => .unchanged) p
  case writeProfile => exact sized_granted (fun p => writeProfile_granted p s) p
  case readProfile => exact sized_granted (fun p => readProfile_granted p s) p
  case writeFaderLaw => exact writeFaderLaw_granted p s
  case setFader => exact sized_granted (fun p => setFader_granted p s) p
  case setMute => exact sized_granted (fun p => setMute_granted p s) p
  case configureOutputLine => exact configured_granted (fun p => configureOutputLine_granted p s) p
  case configureInputLine => exact configured_granted (fun p => configureInputLine_granted p s) p
  case lineActionSet => exact sized_granted (fun p => lineAction_granted .set p s) p
  case lineActionClear => exact sized_granted (fun p => lineAction_granted .clear p s) p
  case lineActionToggle => exact sized_granted (fun p => lineAction_granted .toggle p s) p
  case lineActionTrigger => exact sized_granted (fun p => lineAction_granted .trigger p s) p
  case lineActionStop => exact sized_granted (fun p => lineAction_granted .stop p s) p
  case readLine => exact sized_granted (fun p => readLine_granted p s) p
  case readCapture => exact sized_granted (fun p => readCapture_granted p s) p
  case cueShow => exact sized_granted (fun p => cueShow_granted p s) p
  case go => exact sized_granted (fun _ => .go) p
  case pause => exact sized_granted (fun _ => .pause) p
  case resume => exact sized_granted (fun _ => .resume) p
  case stop => exact sized_granted (fun _ => .stop) p
  case setFlags => exact sized_granted (fun _ => .flags _ _ _) p
  case setLimits => exact sized_granted (fun p => setLimits_granted p s) p
  case readShowing => exact sized_granted (fun _ => .unchanged) p
  case readLog => exact sized_granted (fun p => readLog_granted p s) p
  case markCollected => exact sized_granted (fun _ => .marked _) p
  case setReportMask => exact sized_granted (fun _ => .mask _) p

/-- No block that answers a request touches the request queue or the reply list. -/
theorem Granted.lists {s t : State} (h : Granted s t) :
    t.mgmt.queue = s.mgmt.queue ∧ t.mgmt.replies = s.mgmt.replies := by
  have same : ∀ {ps : List Part} {u : State}, Only ps s u → Part.mgmt ∉ ps →
      u.mgmt.queue = s.mgmt.queue ∧ u.mgmt.replies = s.mgmt.replies := fun {ps u} h hp => by
    have e : u.mgmt = s.mgmt := h.eq .mgmt hp
    rw [e]
    exact ⟨rfl, rfl⟩
  cases h with
  | clock n k hk => exact same ((only_withClock s _).trans (lapseCheck_only _)) (by decide)
  | input n c => exact same (configureInput_only n c s) (by decide)
  | opened l p => exact same (cueAccepted_only l p s) (by decide)
  | go => exact same (takeGo_only s) (by decide)
  | pause => exact same (takePause_only s) (by decide)
  | resume => exact same (takeResume_only s) (by decide)
  | stop => exact same (takeStop_only s) (by decide)
  | starving a b => exact same ((only_withSeq s _).trans (starve_only _)) (by decide)
  | _ => exact ⟨rfl, rfl⟩

/-! ### What a command does -/

/-- The states a command or a media tick can leave: the state as it stood, or what one event makes of it. -/
inductive Acts (s : State) : State → Prop
  | waits : Acts s s
  | request (r : Request) (a : Answer) (hp : s.supplies.main = true)
      (hr : s.mgmt.replies.length < Config.replyPlaces) (ha : Granted s a.after) : Acts s (answered r a)
  | managementReset (r : Request) (hp : s.supplies.main = true)
      (hr : s.mgmt.replies.length < Config.replyPlaces) : Acts s (managementReset (answered r (accept [] s)))
  | cell (c : Cell) : Acts s (receiveCell c s)
  | boundary (hp : s.supplies.main = true) (hc : s.seq.clockRunning = true) : Acts s (unitBoundaryTick s)
  | tick (hc : s.seq.clockRunning = true) (ht : s.seq.tickCount + 1 < s.seq.ticksPerUnit) :
      Acts s (s.withSeq s.seq.ticked)
  | sample : Acts s (sampleTick s)
  | byteTime : Acts s (s.withCaption s.caption.byteTime)
  | divider : Acts s (dividerTick s)
  | laneDown : Acts s (takeLaneDown s)
  | millisecond (pins : Mask8) : Acts s (lineMillisecondTick pins s)
  | spanEnd (n : Nat) : Acts s (takeSpanEnd s n)
  | edge (n : Nat) : Acts s (takeEdge s n)
  | take : Acts s (engineTake s)
  | complete : Acts s (engineComplete s)
  | abandon : Acts s (engineAbandon s)
  | sendStart : Acts s (sendNext s)
  | sendEnd : Acts s (s.withLane { s.lane with sending := none })
  | coldStart : Acts s (coldStart s)
  | warmStart : Acts s (warmStart s)
  | mainLoss : Acts s (mainPowerLoss s)
  | backupLoss : Acts s (s.withSupplies { s.supplies with backup := false, retainedValid := false })

theorem headRequest_some {is : Request → Bool} {s : State} {r : Request} (h : headRequest is s = some r) :
    s.supplies.main = true ∧ s.mgmt.replies.length < Config.replyPlaces := by
  unfold headRequest at h
  split at h
  · split at h
    · rename_i hc
      simp only [powered, Bool.and_eq_true, decide_eq_true_eq] at hc
      exact hc.1
    · cases h
  · cases h

theorem perform_acts {is : Request → Bool} {f : List Byte → State → Answer} {s : State}
    (h : ∀ p, Granted s (f p s).after) : Acts s (perform is f s) := by
  unfold perform
  split
  · rename_i r hr
    obtain ⟨hp, hroom⟩ := headRequest_some hr
    exact .request r _ hp hroom (h _)
  · exact .waits

/-- What an event does where it is due, and nothing where it is not. -/
theorem acts_ite {s u : State} {b : Bool} (h : b = true → Acts s u) : Acts s (if b then u else s) := by
  cases b
  · exact .waits
  · exact h rfl

theorem boundary_acts {s : State} {b : Bool} (h : b = true → boundaryDue s = true) :
    Acts s (if b then unitBoundaryTick s else s) :=
  acts_ite fun hb => by
    have hdue := h hb
    simp only [boundaryDue, powered, Bool.and_eq_true] at hdue
    exact .boundary hdue.1 hdue.2

theorem reset_acts (s : State) :
    Acts s (match headRequest (ofKind 31) s with | some r => resetPerformed r s | none => s) := by
  split
  · rename_i r hr
    obtain ⟨hp, hroom⟩ := headRequest_some hr
    unfold resetPerformed
    split
    · exact .managementReset r hp hroom
    · exact .request r _ hp hroom .unchanged
  · exact .waits

/-- Every command answers a next state, which is one of those. -/
theorem exec_acts (c : Instr) (s : State) : ∃ t, exec c s = .next t ∧ Acts s t := by
  cases hrow : requestRow c with
  | some x => exact ⟨_, exec_requestRow hrow s, perform_acts (requestRow_granted hrow s)⟩
  | none =>
    cases c <;> simp only [requestRow, reduceCtorEq] at hrow
    case fill c => exact ⟨_, rfl, acts_ite fun _ => .cell c⟩
    case essence c => exact ⟨_, rfl, acts_ite fun _ => .cell c⟩
    case resource c => exact ⟨_, rfl, acts_ite fun _ => .cell c⟩
    case manage c => exact ⟨_, rfl, acts_ite fun _ => .cell c⟩
    case invalidCell c => exact ⟨_, rfl, acts_ite fun _ => .cell c⟩
    case reset => exact ⟨_, rfl, reset_acts s⟩
    case unitBoundary => exact ⟨_, rfl, boundary_acts id⟩
    case leadEnd =>
      refine ⟨_, rfl, boundary_acts fun h => ?_⟩
      simp only [leadEndDue, Bool.and_eq_true] at h
      exact h.1.1
    case starved =>
      refine ⟨_, rfl, boundary_acts fun h => ?_⟩
      simp only [starvedDue, Bool.and_eq_true] at h
      exact h.1
    case sampleInstant => exact ⟨_, rfl, acts_ite fun _ => .sample⟩
    case byteTime => exact ⟨_, rfl, acts_ite fun _ => .byteTime⟩
    case dividerStep => exact ⟨_, rfl, acts_ite fun _ => .divider⟩
    case pauseTimeout => exact ⟨_, rfl, acts_ite fun _ => .divider⟩
    case boothSecond => exact ⟨_, rfl, acts_ite fun _ => .divider⟩
    case laneDown => exact ⟨_, rfl, acts_ite fun _ => .laneDown⟩
    case lineMillisecond pins => exact ⟨_, rfl, acts_ite fun _ => .millisecond pins⟩
    case spanEnd n => exact ⟨_, rfl, acts_ite fun _ => .spanEnd n⟩
    case inputEdge n => exact ⟨_, rfl, acts_ite fun _ => .edge n⟩
    case unpackingEngineTake => exact ⟨_, rfl, acts_ite fun _ => .take⟩
    case unpackComplete => exact ⟨_, rfl, acts_ite fun _ => .complete⟩
    case unpackAbandon => exact ⟨_, rfl, acts_ite fun _ => .abandon⟩
    case cellSendStart => exact ⟨_, rfl, acts_ite fun _ => .sendStart⟩
    case cellSendEnd => exact ⟨_, rfl, acts_ite fun _ => .sendEnd⟩
    case coldStart =>
      refine ⟨_, rfl, ?_⟩
      split
      · exact .waits
      · exact .coldStart
    case warmStart => exact ⟨_, rfl, acts_ite fun _ => .warmStart⟩
    case mainPowerLoss => exact ⟨_, rfl, acts_ite fun _ => .mainLoss⟩
    case backupSupplyLoss => exact ⟨_, rfl, .backupLoss⟩

theorem idleTick_acts (s : State) : Acts s (idleTick s) := by
  refine acts_ite fun h => ?_
  simp only [boundaryDue, powered, Bool.and_eq_true] at h
  unfold unitClockTick
  split
  · exact .boundary h.1 h.2
  · rename_i hl
    simp only [Sequencer.atLastTick, decide_eq_true_eq, Nat.not_le] at hl
    exact .tick h.2 hl

/-- What a step can do: a command acts on the state with the queue's rest, or a media tick on the state as it is. -/
theorem step_acts {s t : State} (h : step s = .next t) : ∃ l, Acts (s.withPending l) t := by
  unfold step at h
  split at h
  · cases h
    exact ⟨s.pending, idleTick_acts s⟩
  · rename_i c rest _
    obtain ⟨u, hu, ha⟩ := exec_acts c (s.withPending rest)
    rw [hu] at h
    cases h
    exact ⟨rest, ha⟩

/-- No act touches the queue of commands. -/
theorem Acts.pending {s t : State} (h : Acts s t) : t.pending = s.pending := by
  have same : ∀ {ps : List Part} {u v : State}, Only ps u v → Part.pending ∉ ps → v.pending = u.pending :=
    fun h hp => h.eq .pending hp
  have granted : ∀ {u : State}, Granted s u → u.pending = s.pending := fun h => by
    cases h with
    | clock n k hk => exact same ((only_withClock s _).trans (lapseCheck_only _)) (by decide)
    | input n c => exact same (configureInput_only n c s) (by decide)
    | opened l p => exact same (cueAccepted_only l p s) (by decide)
    | go => exact same (takeGo_only s) (by decide)
    | pause => exact same (takePause_only s) (by decide)
    | resume => exact same (takeResume_only s) (by decide)
    | stop => exact same (takeStop_only s) (by decide)
    | _ => rfl
  have closed : ∀ (c : EndCause) (n : Nat) (u : State),
      (closeShowing c n (releaseAll u)).pending = u.pending := fun c n u =>
    same ((releaseAll_only u).trans (closeShowing_only c n _)) (by decide)
  cases h with
  | request r a hp hr ha => exact (same (answered_only r a) (by decide)).trans (granted ha)
  | managementReset r hp hr => exact (same (formPace_only _) (by decide)).trans (closed .reset _ (resetBlocks (answered r (accept [] s))))
  | cell c => exact same (receiveCell_only c s) (by decide)
  | boundary => exact same (unitBoundaryTick_only s) (by decide)
  | sample => exact same (sampleTick_only s) (by decide)
  | divider => exact same (dividerTick_only s) (by decide)
  | laneDown => exact same (takeLaneDown_only s) (by decide)
  | millisecond pins => exact same (lineMillisecondTick_only pins s) (by decide)
  | spanEnd n => exact same (takeSpanEnd_only s n) (by decide)
  | edge n => exact same (takeEdge_only s n) (by decide)
  | take => exact same (engineTake_only s) (by decide)
  | complete => exact same (engineComplete_only s) (by decide)
  | abandon => exact same (engineAbandon_only s) (by decide)
  | sendStart => exact same (sendNext_only s) (by decide)
  | warmStart =>
    refine (same (lapseCheck_only _) (by decide)).trans ((closed _ _ _).trans ?_)
    unfold startWarm
    split <;> rfl
  | _ => rfl

/-! ### The settled statements -/

/-- Settles O1, by the two branches of `step`. -/
theorem stepRunsFrontCommand : Obligations.step_runs_front_command := by
  constructor
  · intro c rest s h
    simp only [step, h]
  · intro s h
    simp only [step, h]

/-- Settles O3, by the inversion of `exec`. -/
theorem execAnswersNextAndKeepsQueue : Obligations.exec_answers_next_and_keeps_queue := by
  intro c s
  obtain ⟨t, ht, ha⟩ := exec_acts c s
  exact ⟨t, ht, ha.pending⟩

/-- Settles O4: with no place for a reply or no request queued, no row finds a head. -/
theorem requestsWaitForReplyPlace : Obligations.requests_wait_for_reply_place :=
  fun _ hc _ h => exec_requestRows_waits hc fun _ => headRequest_full h

/-- Settles O5: a request row finds no head, and every other powered row tests the main supply. -/
theorem noPowerNoChange : Obligations.no_power_no_change := by
  intro c s h hc
  cases hrow : requestRow c with
  | some x => rw [exec_requestRow hrow, perform_waits (headRequest_unpowered h)]
  | none =>
    have hoff : powered s = false := h
    have hnever : ∀ (f : State → State) (b : Bool), b = false → whenDue b f s = .next s := fun f b hb => by
      simp [whenDue, hb]
    have hcell : ∀ c : Cell, arrives c s = .next s := fun c => by simp [arrives, hoff]
    cases c <;> simp only [requestRow, reduceCtorEq] at hrow
    case fill c => exact hcell c
    case essence c => exact hcell c
    case resource c => exact hcell c
    case manage c => exact hcell c
    case invalidCell c => exact hcell c
    case reset => exact execReset_waits (headRequest_unpowered h)
    case unitBoundary => exact hnever _ _ (by simp [boundaryDue, hoff])
    case leadEnd => exact hnever _ _ (by simp [leadEndDue, boundaryDue, hoff])
    case starved => exact hnever _ _ (by simp [starvedDue, boundaryDue, hoff])
    case sampleInstant => exact hnever _ _ (by simp [sampleDue, hoff])
    case pauseTimeout => exact hnever _ _ (by simp [pauseTimeoutDue, hoff])
    case byteTime => exact hnever (fun s => s.withCaption s.caption.byteTime) _ hoff
    case laneDown => exact hnever _ _ hoff
    case lineMillisecond pins => exact hnever _ _ hoff
    case spanEnd n => exact hnever (takeSpanEnd · n) _ hoff
    case inputEdge n => exact hnever (takeEdge · n) _ hoff
    case unpackingEngineTake => exact hnever _ _ hoff
    case unpackComplete => exact hnever _ _ hoff
    case unpackAbandon => exact hnever _ _ hoff
    case cellSendStart => simp [exec, execCellSendStart, hoff]
    case cellSendEnd => simp [exec, execCellSendEnd, hoff]
    case mainPowerLoss => simp [exec, execMainPowerLoss, hoff]
    all_goals exact absurd (by decide) hc

end Sys2Proof.Machine
end

section
/-! PROOF. What every operation keeps of the blocks whose lists, counts, mask, log and delay rings the invariants bound:
one lemma per operation, and with them O54, O55 and O56. -/

namespace Sys2Proof.Machine

/-! ### The bounds, block by block -/

/-- The Management Unit's lists within their places, its count in range (R172, R173). -/
structure MgmtOk (m : Management) : Prop where
  requests : m.queue.length ≤ Config.requestPlaces
  replies : m.replies.length ≤ Config.replyPlaces
  lost : m.lost ≤ top16

/-- The report queue within its places, its count in range, the mask legal (R186, R188, R189). -/
structure ReportsOk (u : ReportUnit) : Prop where
  queue : u.queue.length ≤ Config.reportPlaces
  lost : u.lost ≤ top32
  mask : MaskLegal u

/-- The link counters in range (R43). -/
structure CountersOk (c : LinkCounters) : Prop where
  headerErrors : c.headerErrors ≤ top16
  gaps : c.gaps ≤ top16
  orphans : c.orphans ≤ top16
  overruns : c.overruns ≤ top16
  truncated : c.truncated ≤ top16
  overlong : c.overlong ≤ top16
  late : c.late ≤ top16
  refused : c.refused ≤ top16

/-- The Link Receiver's counts in range (R42, R43). -/
structure LinkOk (k : LinkReceiver) : Prop where
  counters : CountersOk k.counters
  timer : k.laneTimer ≤ 100

/-- Every track queue within its buffers (R52). -/
def TracksOk (x : TrackAssembler) : Prop := ∀ k, k < 4 → (bankGet x.queues k).length ≤ bufferCount k

/-- The bounds of one block stand in the second state where they stood in the first. A block without bounds has
nothing to keep. -/
def State.keeps (s t : State) : Part → Prop
  | .track => TracksOk s.track → TracksOk t.track
  | .mgmt => MgmtOk s.mgmt → MgmtOk t.mgmt
  | .reports => ReportsOk s.reports → ReportsOk t.reports
  | .link => LinkOk s.link → LinkOk t.link
  | .recorder => (s.recorder.log.length ≤ Config.logPlaces → t.recorder.log.length ≤ Config.logPlaces) ∧
      (LogOrdered s.recorder → LogOrdered t.recorder)
  | .caption => s.caption.ring.length ≤ Config.captionRing → t.caption.ring.length ≤ Config.captionRing
  | .text => s.text.store.length ≤ Config.storeEntries → t.text.store.length ≤ Config.storeEntries
  | .seq => s.seq.starvation ≤ 240 → t.seq.starvation ≤ 240
  | .clock => s.clock.fraction ≤ 255 → t.clock.fraction ≤ 255
  | .lane => s.lane.sequence < 65536 → t.lane.sequence < 65536
  | .sound => RingsHold s.sound → RingsHold t.sound
  | .supplies => True
  | .engine => True
  | .licences => True
  | .showList => True
  | .picture => True
  | .lines => True
  | .cues => True
  | .pending => True

/-- The bounds of every block are kept. -/
def Kept (s t : State) : Prop := ∀ p, s.keeps t p

theorem keeps_of_agree {s t : State} {p : Part} (h : State.agree p s t) : s.keeps t p := by
  cases p with
  | recorder => exact ⟨fun k => h.symm ▸ k, fun k => h.symm ▸ k⟩
  | _ => first | trivial | exact fun k => h.symm ▸ k

theorem keeps_trans {s t u : State} {p : Part} (h : s.keeps t p) (k : t.keeps u p) : s.keeps u p := by
  cases p with
  | recorder => exact ⟨k.1 ∘ h.1, k.2 ∘ h.2⟩
  | _ => first | trivial | exact k ∘ h

theorem Kept.refl (s : State) : Kept s s := fun p => keeps_of_agree (Only.refl [] s p List.not_mem_nil)

theorem Kept.trans {s t u : State} (h : Kept s t) (k : Kept t u) : Kept s u := fun p => keeps_trans (h p) (k p)

theorem Kept.ite {s t u : State} (c : Prop) [Decidable c] (h : Kept s t) (k : Kept s u) :
    Kept s (if c then t else u) := by
  split
  · exact h
  · exact k

theorem Kept.foldl {α : Type} (f : State → α → State) (h : ∀ s a, Kept s (f s a)) :
    ∀ (l : List α) (s : State), Kept s (l.foldl f s)
  | [], s => Kept.refl s
  | a :: l, s => (h s a).trans (Kept.foldl f h l (f s a))

/-- A change of some blocks keeps the bounds where it keeps those of each of these blocks. -/
theorem kept_of_only {ps : List Part} {s t : State} (h : Only ps s t) (k : ∀ p ∈ ps, s.keeps t p) : Kept s t :=
  fun p => by
    by_cases hp : p ∈ ps
    · exact k p hp
    · exact keeps_of_agree (h p hp)

/-- The blocks without bounds. -/
def freeParts : List Part := [.supplies, .engine, .licences, .showList, .picture, .lines, .cues, .pending]

theorem keeps_free {s t : State} {p : Part} (h : p ∈ freeParts) : s.keeps t p := by
  simp only [freeParts, List.mem_cons, List.not_mem_nil, or_false] at h
  rcases h with rfl | rfl | rfl | rfl | rfl | rfl | rfl | rfl <;> trivial

/-- A change of blocks without bounds keeps the bounds. -/
theorem kept_free {ps : List Part} {s t : State} (h : Only ps s t) (hp : ps ⊆ freeParts) : Kept s t :=
  kept_of_only h fun _ hm => keeps_free (hp hm)

/-- A change of one block with bounds, beside blocks without. -/
theorem kept_one {ps : List Part} {s t : State} (p : Part) (h : Only (p :: ps) s t) (k : s.keeps t p)
    (hp : ps ⊆ freeParts) : Kept s t :=
  kept_of_only h fun q hq => by
    rcases List.mem_cons.1 hq with rfl | hq
    · exact k
    · exact keeps_free (hp hq)

section setters
variable {s : State}
theorem kept_withReports {x : ReportUnit} (h : ReportsOk s.reports → ReportsOk x) : Kept s (s.withReports x) :=
  kept_one .reports (only_withReports s x) h (List.nil_subset _)
theorem kept_withMgmt {x : Management} (h : MgmtOk s.mgmt → MgmtOk x) : Kept s (s.withMgmt x) :=
  kept_one .mgmt (only_withMgmt s x) h (List.nil_subset _)
theorem kept_withLink {x : LinkReceiver} (h : LinkOk s.link → LinkOk x) : Kept s (s.withLink x) :=
  kept_one .link (only_withLink s x) h (List.nil_subset _)
theorem kept_withTrack {x : TrackAssembler} (h : TracksOk s.track → TracksOk x) : Kept s (s.withTrack x) :=
  kept_one .track (only_withTrack s x) h (List.nil_subset _)
theorem kept_withText {x : TextEngine} (h : s.text.store.length ≤ Config.storeEntries → x.store.length ≤ Config.storeEntries) :
    Kept s (s.withText x) := kept_one .text (only_withText s x) h (List.nil_subset _)
theorem kept_withSeq {x : Sequencer} (h : s.seq.starvation ≤ 240 → x.starvation ≤ 240) : Kept s (s.withSeq x) :=
  kept_one .seq (only_withSeq s x) h (List.nil_subset _)
theorem kept_withClock {x : BoothTime} (h : s.clock.fraction ≤ 255 → x.fraction ≤ 255) : Kept s (s.withClock x) :=
  kept_one .clock (only_withClock s x) h (List.nil_subset _)
theorem kept_withLane {x : ReturnLane} (h : s.lane.sequence < 65536 → x.sequence < 65536) : Kept s (s.withLane x) :=
  kept_one .lane (only_withLane s x) h (List.nil_subset _)
theorem kept_withCaption {x : CaptionLine}
    (h : s.caption.ring.length ≤ Config.captionRing → x.ring.length ≤ Config.captionRing) : Kept s (s.withCaption x) :=
  kept_one .caption (only_withCaption s x) h (List.nil_subset _)
theorem kept_withSound {x : SoundEngine} (h : RingsHold s.sound → RingsHold x) : Kept s (s.withSound x) :=
  kept_one .sound (only_withSound s x) h (List.nil_subset _)
theorem kept_withRecorder {x : Recorder}
    (h : s.recorder.log.length ≤ Config.logPlaces → x.log.length ≤ Config.logPlaces)
    (k : LogOrdered s.recorder → LogOrdered x) : Kept s (s.withRecorder x) :=
  kept_one .recorder (only_withRecorder s x) ⟨h, k⟩ (List.nil_subset _)
end setters

/-! ### Reports -/

theorem addTo_le (top n d : Nat) : addTo top n d ≤ top := Nat.min_le_left _ _

theorem offer_ok {u : ReportUnit} (r : Report) (h : ReportsOk u) : ReportsOk (u.offer r) := by
  unfold ReportUnit.offer
  split
  · exact h
  · split
    · exact ⟨h.queue, addTo_le _ _ _, h.mask⟩
    · rename_i hroom
      refine ⟨?_, h.lost, h.mask⟩
      simp only [List.length_append, List.length_singleton]
      omega

theorem raiseAs_kept (k : ReportKind) (n a b : Nat) (s : State) : Kept s (raiseAs k n a b s) :=
  kept_withReports (offer_ok _)

theorem raise_kept (k : ReportKind) (a b : Nat) (s : State) : Kept s (raise k a b s) := raiseAs_kept k _ a b s

theorem raiseIf_kept (c : Bool) (k : ReportKind) (a b : Nat) (s : State) : Kept s (raiseIf c k a b s) :=
  Kept.ite _ (raise_kept k a b s) (Kept.refl s)

/-! ### Controls -/

/-- The Sequencer changed in nothing but its pending controls, held inputs, flags, pause steps and limits. -/
def Sequencer.Steers (q r : Sequencer) : Prop :=
  r = { q with
    pend := r.pend
    held := r.held
    flags := r.flags
    pauseSteps := r.pauseSteps
    pauseLimit := r.pauseLimit
    starveLimit := r.starveLimit }

theorem Sequencer.Steers.refl (q : Sequencer) : q.Steers q := rfl

theorem Sequencer.Steers.trans {q r x : Sequencer} (h : q.Steers r) (k : r.Steers x) : q.Steers x := by
  unfold Sequencer.Steers at *
  rw [k, h]

theorem testLimit_steers (q : Sequencer) : q.Steers q.testLimit := by
  unfold Sequencer.testLimit
  split <;> rfl

theorem takeGo_steers (s : State) : s.seq.Steers (takeGo s).2.seq := by
  unfold takeGo
  split
  · split <;> rfl
  · split <;> rfl
  all_goals rfl

theorem takePause_steers (s : State) : s.seq.Steers (takePause s).2.seq := by
  unfold takePause
  split
  · rfl
  · rfl
  · split
    · exact (show s.seq.Steers { s.seq with pend := { s.seq.pend with resume := false } } from rfl).trans
        (testLimit_steers _)
    · rfl
  all_goals rfl

theorem takeResume_steers (s : State) : s.seq.Steers (takeResume s).2.seq := by
  unfold takeResume
  repeat' split
  all_goals rfl

theorem takeStop_steers (s : State) : s.seq.Steers (takeStop s).2.seq := by
  unfold takeStop
  split <;> rfl

theorem joinHeld_steers (i : Nat) (s : State) : s.seq.Steers (joinHeld i s).seq := by
  have h : s.seq.Steers (s.seq.joined i) := rfl
  unfold joinHeld
  split
  · exact h.trans (testLimit_steers _)
  · exact h

theorem limited_steers (a b : Nat) (q : Sequencer) : q.Steers (q.limited a b) :=
  (show q.Steers { q with pauseLimit := a, starveLimit := b } from rfl).trans (testLimit_steers _)

theorem starve_steers (s : State) : s.seq.Steers (starve s).seq := rfl

theorem pauseStep_steers (s : State) : s.seq.Steers (pauseStep s).seq := by
  unfold pauseStep
  split
  · exact (show s.seq.Steers { s.seq with pauseSteps := s.seq.pauseSteps + 1 } from rfl).trans (testLimit_steers _)
  · rfl

theorem inputAction_steers (n : Nat) (r : Bool) (a : InAction) (s : State) :
    s.seq.Steers (inputAction n r a s).seq := by
  unfold inputAction
  cases a with
  | go => exact (controlAction_seq _ _).symm ▸ takeGo_steers s
  | pause => exact (controlAction_seq _ _).symm ▸ takePause_steers s
  | resume => exact (controlAction_seq _ _).symm ▸ takeResume_steers s
  | stop => exact (controlAction_seq _ _).symm ▸ takeStop_steers s
  | _ => rfl

theorem acceptEdge_steers (n : Nat) (s : State) : s.seq.Steers (acceptEdge n s).seq := by
  have held : ∀ (b c : Bool) (u : State),
      u.seq.Steers (if b then (if c then joinHeld n u else leaveHeld n u) else u).seq := by
    intro b c u
    split
    · split
      · exact joinHeld_steers n u
      · rfl
    · rfl
  unfold acceptEdge
  dsimp only
  split
  · exact (held _ _ (setInput n _ s)).trans (inputAction_steers n _ _ (setInput n _ _))
  · exact held _ _ (setInput n _ s)

theorem takeEdge_steers (s : State) (n : Nat) : s.seq.Steers (takeEdge s n).seq := by
  unfold takeEdge
  split
  · exact acceptEdge_steers n s
  · rfl

theorem configureInput_steers (n : Nat) (c : InConfig) (s : State) : s.seq.Steers (configureInput n c s).seq := by
  unfold configureInput
  dsimp only
  split
  · split
    · rfl
    · exact joinHeld_steers n (setInput n _ s)
  · split <;> rfl

/-- What steers the Sequencer keeps its counts. -/
theorem keeps_of_steers {s t : State} (h : s.seq.Steers t.seq) : s.keeps t .seq := by
  intro hs
  rw [h]
  exact hs

/-- A change of the Sequencer that only steers it keeps the bounds. -/
theorem kept_of_steers {ps : List Part} {s t : State} (h : Only (.seq :: ps) s t) (k : s.seq.Steers t.seq)
    (hp : ps ⊆ freeParts) : Kept s t := kept_one .seq h (keeps_of_steers k) hp

theorem starve_kept (s : State) : Kept s (starve s) := (kept_withSeq id).trans (raise_kept _ _ _ _)

/-! ### Recorder -/

/-- A change of the OPEN record that keeps its number. -/
theorem feedRecord_kept {f : ShowRecord → ShowRecord} (hf : ∀ r, (f r).number = r.number) (s : State) :
    Kept s (feedRecord f s) := by
  have hlog : (s.recorder.feed f).log = s.recorder.log ∧ (s.recorder.feed f).nextNumber = s.recorder.nextNumber ∧
      (s.recorder.feed f).status = s.recorder.status ∧
      (s.recorder.feed f).record.number = s.recorder.record.number := by
    unfold Recorder.feed
    split
    · exact ⟨rfl, rfl, rfl, hf _⟩
    · exact ⟨rfl, rfl, rfl, rfl⟩
  obtain ⟨e1, e2, e3, e4⟩ := hlog
  refine kept_withRecorder (fun h => e1 ▸ h) fun h => ⟨?_, ?_, ?_, ?_, ?_, ?_⟩
  · rw [e1]; exact h.rising
  · rw [e1, e2]; exact h.below
  · rw [e1]; exact h.places
  · rw [e2]; exact h.top
  · rw [e1, e3, e4]; exact h.open_above
  · rw [e2, e3, e4]; exact h.open_below

theorem feedResult_kept (f : SegResult → SegResult) (s : State) : Kept s (feedResult f s) :=
  feedRecord_kept (f := fun r => { r with results := changeLast f r.results }) (fun _ => rfl) s

/-- A new record opened under a number below the top (R161). -/
theorem openShowing_kept (l : List Nat) (s : State) (h : s.recorder.nextNumber ≠ lastNumber) :
    Kept s (openShowing l s) :=
  kept_withRecorder id fun k =>
    { rising := k.rising
      below := fun x hx => Nat.lt_succ_of_lt (k.below x hx)
      places := k.places
      top := Nat.succ_le_of_lt (lt_of_le_of_ne k.top h)
      open_above := fun _ => k.below
      open_below := fun _ => Nat.lt_succ_self _ }

/-- The log after an append (R167): the oldest record gone where it was full, the new one at its end. -/
theorem appendLog_log (x : LogRecord) (s : State) :
    ∃ l : List LogRecord, (appendLog x s).recorder.log = l ++ [x] ∧ l.Sublist s.recorder.log ∧
      (s.recorder.log.length ≤ Config.logPlaces → l.length < Config.logPlaces) := by
  have room : ∀ r : Recorder, r.madeRoom.log.Sublist r.log ∧
      (r.log.length ≤ Config.logPlaces → r.madeRoom.log.length < Config.logPlaces) := by
    intro r
    unfold Recorder.madeRoom
    split
    · refine ⟨List.drop_sublist 1 r.log, fun h => ?_⟩
      have hpos : 0 < Config.logPlaces := by decide
      simp only [List.length_drop]
      omega
    · exact ⟨List.Sublist.refl _, fun _ => by omega⟩
  unfold appendLog
  dsimp only
  rw [raiseIf_recorder, raiseIf_recorder]
  split
  · exact ⟨_, rfl, room _⟩
  · exact ⟨_, rfl, room _⟩

theorem closeShowing_recorder_log (c : EndCause) (n : Nat) (s : State) (h : s.recorder.status = .opened) :
    ∃ l : List LogRecord, ∃ x : LogRecord, (closeShowing c n s).recorder.log = l ++ [x] ∧
      x.number = s.recorder.record.number ∧ l.Sublist s.recorder.log ∧
      (s.recorder.log.length ≤ Config.logPlaces → l.length < Config.logPlaces) := by
  obtain ⟨l, hl, hsub, hlen⟩ := appendLog_log
    (condense (closedRecord s.showList c n (boothNow s) s.recorder.record) c)
    (s.withRecorder { s.recorder with
      status := .closed, record := closedRecord s.showList c n (boothNow s) s.recorder.record })
  refine ⟨l, condense (closedRecord s.showList c n (boothNow s) s.recorder.record) c, ?_, rfl, hsub, hlen⟩
  unfold closeShowing
  rw [if_pos h]
  exact hl

theorem closeShowing_ordered (c : EndCause) (n : Nat) (s : State) (h : LogOrdered s.recorder) :
    LogOrdered (closeShowing c n s).recorder := by
  by_cases ho : s.recorder.status = .opened
  · obtain ⟨hst, -, -, hnext⟩ := closeShowing_opened c n s ho
    obtain ⟨l, x, hlog, hx, hsub, hlen⟩ := closeShowing_recorder_log c n s ho
    have habove : ∀ y ∈ l, y.number < x.number := fun y hy => hx ▸ h.open_above ho y (hsub.subset hy)
    refine ⟨?_, ?_, ?_, ?_, ?_, ?_⟩
    · rw [hlog, List.map_append, List.pairwise_append]
      refine ⟨h.rising.sublist (hsub.map _), List.pairwise_singleton _ _, ?_⟩
      simpa using habove
    · rw [hlog, hnext]
      intro y hy
      rcases List.mem_append.1 hy with hy | hy
      · exact h.below y (hsub.subset hy)
      · rw [List.mem_singleton.1 hy, hx]
        exact h.open_below ho
    · rw [hlog, List.length_append]
      exact hlen h.places
    · rw [hnext]; exact h.top
    · rw [hst]; exact fun e => absurd e (by decide)
    · rw [hst]; exact fun e => absurd e (by decide)
  · rw [closeShowing_not_opened c n s ho]
    exact h

theorem closeShowing_kept (c : EndCause) (n : Nat) (s : State) : Kept s (closeShowing c n s) := by
  by_cases ho : s.recorder.status = .opened
  · refine kept_of_only (closeShowing_only c n s) fun p hp => ?_
    simp only [List.mem_cons, List.not_mem_nil, or_false] at hp
    rcases hp with rfl | rfl
    · obtain ⟨l, x, hlog, -, -, hlen⟩ := closeShowing_recorder_log c n s ho
      refine ⟨fun h => ?_, closeShowing_ordered c n s⟩
      rw [hlog, List.length_append]
      exact hlen h
    · have reports : ∀ (a b : Bool) (k i j m : Nat) (r : Recorder) (u : State), ReportsOk u.reports →
          ReportsOk (raiseIf a .logFull k i (raiseIf b .logHalf j m (u.withRecorder r))).reports :=
        fun a b k i j m r u h =>
          raiseIf_kept a _ _ _ _ .reports (raiseIf_kept b _ _ _ (u.withRecorder r) .reports h)
      intro h
      unfold closeShowing
      rw [if_pos ho]
      refine offer_ok _ ?_
      unfold appendLog
      dsimp only
      refine reports _ _ _ _ _ _ _ _ ?_
      split
      · exact offer_ok _ h
      · exact h
  · rw [closeShowing_not_opened c n s ho]
    exact Kept.refl s

theorem markCollected_numbers (n : Nat) (log : List LogRecord) :
    (markCollected n log).1.map (·.number) = log.map (·.number) := by
  simp only [markCollected, List.map_map]
  refine List.map_congr_left fun x _ => ?_
  simp only [Function.comp_apply]
  split <;> rfl

theorem markCollected_below {n k : Nat} {log : List LogRecord} (h : ∀ x ∈ log, x.number < k) :
    ∀ x ∈ (markCollected n log).1, x.number < k := by
  have hn : ∀ m ∈ (markCollected n log).1.map (·.number), m < k := by
    rw [markCollected_numbers]
    simpa using h
  simpa using hn

theorem marked_kept (n : Nat) (s : State) :
    Kept s (s.withRecorder ({ s.recorder with log := (markCollected n s.recorder.log).1 } : Recorder).rearmed) := by
  have hlen : (markCollected n s.recorder.log).1.length = s.recorder.log.length := by simp [markCollected]
  refine kept_withRecorder (fun h => hlen.trans_le h) fun h => ?_
  exact
    { rising := (markCollected_numbers n s.recorder.log).symm ▸ h.rising
      below := markCollected_below h.below
      places := hlen.trans_le h.places
      top := h.top
      open_above := fun ho => markCollected_below (h.open_above ho)
      open_below := h.open_below }

/-! ### Licences and the booth clock -/

theorem releaseSlot_kept (s : State) (i : Nat) : Kept s (releaseSlot s i) :=
  Kept.ite _ ((kept_free (only_withLicences s _) (by decide)).trans (raiseIf_kept _ _ _ _ _)) (Kept.refl s)

theorem releaseAll_kept (s : State) : Kept s (releaseAll s) := Kept.foldl _ releaseSlot_kept _ s

theorem lapseSlot_kept (s : State) (i : Nat) : Kept s (lapseSlot s i) :=
  Kept.ite _ ((kept_free (only_withLicences s _) (by decide)).trans (raise_kept _ _ _ _)) (Kept.refl s)

theorem lapseCheck_kept (s : State) : Kept s (lapseCheck s) :=
  Kept.ite _ (Kept.foldl _ lapseSlot_kept _ s) (Kept.refl s)

theorem countShowing_kept (c : Context) (s : State) : Kept s (countShowing c s) :=
  ((kept_free (only_withLicences s _) (by decide)).trans (feedRecord_kept (by intro _; rfl) _)).trans
    (raise_kept _ _ _ _)

theorem formPace_kept (s : State) : Kept s (formPace s) := kept_withLane id

theorem boothSecondActs_kept (s : State) : Kept s (boothSecondActs s) :=
  (lapseCheck_kept s).trans (Kept.ite _ (formPace_kept _) (Kept.refl _))

theorem pauseStep_kept (s : State) : Kept s (pauseStep s) :=
  kept_of_steers (pauseStep_only s) (pauseStep_steers s) (List.nil_subset _)

theorem step_fraction (c : BoothTime) (h : c.fraction ≤ 255) : c.step.fraction ≤ 255 := by
  unfold BoothTime.step
  split
  · exact Nat.zero_le _
  · show c.fraction + 1 ≤ 255
    omega

theorem dividerTick_kept (s : State) : Kept s (dividerTick s) := by
  refine (kept_withClock (step_fraction s.clock)).trans ?_
  exact Kept.ite _ (Kept.ite _ ((pauseStep_kept _).trans (boothSecondActs_kept _)) (pauseStep_kept _)) (Kept.refl _)

/-! ### Sound -/

theorem RingsHold.congr {q r : SoundEngine} (h : RingsHold q) (h1 : r.rings = q.rings)
    (h2 : r.writeIndex = q.writeIndex) : RingsHold r := ⟨h1 ▸ h.rings, h2 ▸ h.writeIndex⟩

theorem clearRings_hold {q : SoundEngine} (h : q.writeIndex < Config.ringLength) : RingsHold q.clearRings := by
  refine ⟨fun r hr => ?_, h⟩
  have : r = [] := by simpa [SoundEngine.clearRings] using hr
  subst this
  rfl

theorem change_hold (p : Nat) (rate : SampleRate) {q : SoundEngine} (h : RingsHold q) :
    RingsHold (q.change p rate) := by
  unfold SoundEngine.change
  dsimp only
  split
  · exact clearRings_hold h.writeIndex
  · exact h.congr rfl rfl

theorem boundaryProfile_hold (g : Option Segment) {q : SoundEngine} (h : RingsHold q) :
    RingsHold (q.boundaryProfile g) := by
  unfold SoundEngine.boundaryProfile
  split
  · exact (change_hold _ _ h).congr rfl rfl
  · split
    · exact (change_hold _ _ h).congr rfl rfl
    · exact h

theorem cueShow_hold (g : Segment) {q : SoundEngine} (h : RingsHold q) : RingsHold (q.cueShow g) := by
  have hc := change_hold g.profile g.srate h
  unfold SoundEngine.cueShow
  dsimp only
  split
  · exact hc.congr rfl rfl
  · exact hc.congr rfl rfl

/-- Every sample made is clamped to 24 bits, and the write index wraps at the ring's length (R114, R116). -/
theorem emit_hold (running : Bool) (fade : Nat) {q : SoundEngine} (h : RingsHold q) :
    RingsHold (q.emit running fade) := by
  refine ⟨fun r hr => ?_, Nat.mod_lt _ (by decide)⟩
  have hm : ∃ i, i < 18 ∧ r = ringSet (bankGet q.rings i) q.writeIndex (clamp24 (q.made fade i)) := by
    simpa [SoundEngine.emit, SoundEngine.advance, bankOf, Vector.toList, eq_comm] using hr
  obtain ⟨i, hi, rfl⟩ := hm
  obtain ⟨hlo, hhi⟩ := clamp24_range (q.made fade i)
  exact ringSet_wf (h.rings _ (bankGet_mem q.rings i hi)) _ _ h.writeIndex hlo hhi

theorem countClip_kept (s : State) : Kept s (countClip s) := feedRecord_kept (by intro _; rfl) s

theorem handClip_kept (d : Int) (s : State) (i : Nat) : Kept s (handClip d s i) := by
  refine Kept.ite _ ((countClip_kept s).trans (Kept.ite _ (Kept.refl _) ?_)) (Kept.refl s)
  refine Kept.trans (kept_withSound ?_) (raise_kept _ _ _ _)
  exact fun h => h.congr rfl rfl

theorem sampleTick_kept (s : State) : Kept s (sampleTick s) := by
  have hclips : ∀ (d : Nat → Int) (l : List Nat), Kept s (l.foldl (fun s i => handClip (d i) s i) s) :=
    fun d l => Kept.foldl _ (fun s i => handClip_kept (d i) s i) l s
  have hrings : RingsHold s.sound → RingsHold (s.sound.stepGains.emit s.seq.clockRunning (instantFade s)) :=
    fun h => emit_hold _ _ (h.congr rfl rfl)
  intro p
  by_cases hp : p = .sound
  · subst hp
    exact fun h => (hrings h).congr rfl rfl
  · exact keeps_trans (hclips _ _ p) (keeps_of_agree (only_withSound _ _ p (by simpa using hp)))

/-! ### Lines and the lane -/

theorem setInput_kept (n : Nat) (x : InLine) (s : State) : Kept s (setInput n x s) :=
  kept_free (setInput_only n x s) (by decide)

theorem joinHeld_kept (n : Nat) (s : State) : Kept s (joinHeld n s) :=
  kept_of_steers (joinHeld_only n s) (joinHeld_steers n s) (List.nil_subset _)

theorem leaveHeld_kept (n : Nat) (s : State) : Kept s (leaveHeld n s) := kept_withSeq id

theorem setFlagsBy_kept (x y z : Mask8) (s : State) : Kept s (setFlagsBy x y z s) := kept_withSeq id

theorem takeGo_kept (s : State) : Kept s (takeGo s).2 :=
  kept_of_steers (takeGo_only s) (takeGo_steers s) (List.nil_subset _)

theorem takePause_kept (s : State) : Kept s (takePause s).2 :=
  kept_of_steers (takePause_only s) (takePause_steers s) (List.nil_subset _)

theorem takeResume_kept (s : State) : Kept s (takeResume s).2 :=
  kept_of_steers (takeResume_only s) (takeResume_steers s) (List.nil_subset _)

theorem takeStop_kept (s : State) : Kept s (takeStop s).2 :=
  kept_of_steers (takeStop_only s) (takeStop_steers s) (List.nil_subset _)

theorem inputAction_kept (n : Nat) (r : Bool) (a : InAction) (s : State) : Kept s (inputAction n r a s) := by
  have control : ∀ (d : Nat) {x : ReplyOutcome × State}, Kept s x.2 → Kept s (controlAction d x) :=
    fun d x h => Kept.ite _ h (h.trans (raise_kept _ _ _ _))
  cases a with
  | none => exact Kept.refl s
  | go => exact control _ (takeGo_kept s)
  | pause => exact control _ (takePause_kept s)
  | resume => exact control _ (takeResume_kept s)
  | stop => exact control _ (takeStop_kept s)
  | flag x y z => exact setFlagsBy_kept x y z s
  | report => exact raise_kept _ _ _ s

theorem acceptEdge_kept (n : Nat) (s : State) : Kept s (acceptEdge n s) := by
  have held : ∀ (b c : Bool) (u : State), Kept u (if b then (if c then joinHeld n u else leaveHeld n u) else u) :=
    fun b c u => Kept.ite _ (Kept.ite _ (joinHeld_kept n u) (leaveHeld_kept n u)) (Kept.refl u)
  unfold acceptEdge
  dsimp only
  split
  · exact ((setInput_kept n _ s).trans (held _ _ _)).trans ((setInput_kept n _ _).trans (inputAction_kept n _ _ _))
  · exact (setInput_kept n _ s).trans (held _ _ _)

theorem takeEdge_kept (s : State) (n : Nat) : Kept s (takeEdge s n) := Kept.ite _ (acceptEdge_kept n s) (Kept.refl s)

theorem configureInput_kept (n : Nat) (c : InConfig) (s : State) : Kept s (configureInput n c s) :=
  kept_of_only (configureInput_only n c s) fun p hp => by
    simp only [List.mem_cons, List.not_mem_nil, or_false] at hp
    rcases hp with rfl | rfl
    · trivial
    · exact keeps_of_steers (configureInput_steers n c s)

theorem takeLaneDown_kept (s : State) : Kept s (takeLaneDown s) :=
  Kept.ite _ ((kept_withLink (by exact fun h => ⟨h.counters, h.timer⟩)).trans (raise_kept _ _ _ _)) (Kept.refl s)

theorem settleDue_kept (s : State) : Kept s (settleDue s) :=
  ((Kept.foldl takeSpanEnd (fun s n => kept_free (takeSpanEnd_only s n) (by decide)) _ s).trans
    (Kept.foldl takeEdge takeEdge_kept _ _)).trans (takeLaneDown_kept _)

theorem countLineMs_kept (pins : Mask8) (s : State) : Kept s (countLineMs pins s) :=
  Kept.trans (kept_free (only_withLines s _) (by decide))
    (kept_withLink (by exact fun h => ⟨h.counters, Nat.min_le_left _ _⟩))

theorem lineMillisecondTick_kept (pins : Mask8) (s : State) : Kept s (lineMillisecondTick pins s) :=
  (settleDue_kept s).trans (countLineMs_kept pins _)

/-! ### Slots and queues -/

theorem setAssembly_kept (slot : Nat) (a : Assembly) (s : State) : Kept s (setAssembly slot a s) := kept_withTrack id

theorem setQueue_kept {slot : Nat} {q : List UnitRec} {s : State}
    (h : slot < 4 → TracksOk s.track → q.length ≤ bufferCount slot) : Kept s (setQueue slot q s) :=
  kept_withTrack fun ht k hk => by
    by_cases e : slot = k
    · subst e
      rw [bankGet_set_same _ _ _ hk]
      exact h hk ht
    · rw [bankGet_set_other _ _ _ _ e]
      exact ht k hk

/-- A queue replaced by one that is no longer. -/
theorem setQueue_kept_of_le {slot : Nat} {q : List UnitRec} {s : State} (h : q.length ≤ (queueOf s slot).length) :
    Kept s (setQueue slot q s) := setQueue_kept fun hk ht => h.trans (ht slot hk)

theorem bump_kept {f : LinkCounters → LinkCounters} (h : ∀ c, CountersOk c → CountersOk (f c)) (s : State) :
    Kept s (bump f s) := kept_withLink fun k => ⟨h _ k.counters, k.timer⟩

theorem countLate_kept (n : Nat) (s : State) : Kept s (countLate n s) :=
  bump_kept (by exact fun _ h => { h with late := addTo_le _ _ _ }) s

theorem countRefused_kept (s : State) : Kept s (countRefused s) :=
  bump_kept (by exact fun _ h => { h with refused := addTo_le _ _ _ }) s

theorem markAbandoned_kept (f : UnpackJob → Bool) (n : Nat) (s : State) : Kept s (markAbandoned f n s) :=
  kept_free (markAbandoned_only f n s) (by decide)

theorem leaveQueue_kept {slot : Nat} {out rest : List UnitRec} {s : State}
    (h : rest.length ≤ (queueOf s slot).length) : Kept s (leaveQueue slot out rest s) :=
  ((setQueue_kept_of_le h).trans (Kept.ite _ (setAssembly_kept _ _ _) (Kept.refl _))).trans (markAbandoned_kept _ _ _)

theorem dropUnits_kept (slot : Nat) (f : UnitRec → Bool) (s : State) : Kept s (dropUnits slot f s) :=
  leaveQueue_kept (List.length_filter_le _ _)

theorem discardLate_kept (slot : Nat) (f : UnitRec → Bool) (s : State) : Kept s (discardLate slot f s) :=
  (dropUnits_kept slot f s).trans (countLate_kept _ _)

theorem discardEntry_kept (s : State) (i : Nat) : Kept s (discardEntry s i) :=
  Kept.foldl _ (fun s slot => discardLate_kept slot _ s) _ s

theorem monoDiscard_kept (s : State) : Kept s (monoDiscard s) := by
  unfold monoDiscard
  split
  · exact Kept.ite _ (Kept.refl s) (discardLate_kept _ _ s)
  · exact Kept.refl s

theorem emptyQueues_kept (s : State) : Kept s (emptyQueues s) :=
  (Kept.foldl _ (fun s slot => dropUnits_kept slot _ s) _ s).trans
    (Kept.foldl _ (fun s slot => Kept.ite _ (setAssembly_kept slot _ s) (Kept.refl s)) _ _)

/-! ### Text and captions -/

theorem setStore_kept {l : List Resource} {s : State} (h : l.length ≤ s.text.store.length) : Kept s (setStore l s) :=
  kept_withText h.trans

/-- A change of the Text Engine that leaves the store alone. -/
theorem kept_withText_store {x : TextEngine} {s : State} (h : x.store = s.text.store) : Kept s (s.withText x) :=
  kept_withText fun k => h ▸ k

theorem freeResources_kept (f : Resource → Bool) (s : State) : Kept s (freeResources f s) := by
  have skip : ∀ (b : Bool) (slot : Nat) (u : State), Kept u (if b then setAssembly slot .skipping u else u) :=
    fun b slot u => Kept.ite _ (setAssembly_kept slot _ u) (Kept.refl u)
  exact ((setStore_kept (List.length_filter_le _ _)).trans ((skip _ 4 _).trans (skip _ 5 _))).trans
    (markAbandoned_kept _ _ _)

/-- A message joins the ring where it fits (R133). -/
theorem pushCaption_kept {m : List Byte} {s : State} (h : m.length ≤ captionFree s) : Kept s (pushCaption m s) :=
  kept_withCaption fun k => by
    simp only [captionFree] at h
    simp only [List.length_append]
    omega

@[simp] theorem length_be (w n : Nat) : (be w n).length = w := by
  induction w with
  | zero => rfl
  | succ w ih => simp [be, ih]

theorem length_showMessage (number : Nat) (b : Bool) (text : List Byte) :
    (showMessage number b text).length = 6 + text.length := by
  simp [showMessage, length_be]
  omega

theorem length_clearMessage (number : Nat) : (clearMessage number).length = 4 := by simp [clearMessage, length_be]

theorem countCueDropped_kept (s : State) : Kept s (countCueDropped s) := feedRecord_kept (by intro _; rfl) s

theorem countMissing_kept (s : State) : Kept s (countMissing s) := feedRecord_kept (by intro _; rfl) s

theorem countBadCues_kept (n : Nat) (s : State) : Kept s (countBadCues n s) := feedRecord_kept (by intro _; rfl) s

theorem markShown_kept (d : Displayed) (s : State) : Kept s (markShown d s).2 :=
  Kept.ite _ (Kept.refl s) (feedResult_kept _ s)

theorem queueShow_kept (d : Displayed) (s : State) : Kept s (queueShow d s).2 := by
  unfold queueShow
  dsimp only
  split
  · rename_i hfree
    exact (pushCaption_kept (by rw [length_showMessage]; exact hfree)).trans (markShown_kept d _)
  · split
    · rename_i hfull hfree
      refine ((pushCaption_kept ?_).trans (raise_kept _ _ _ _)).trans (markShown_kept d _)
      rw [length_showMessage, List.length_take]
      omega
    · exact (countCueDropped_kept s).trans (raise_kept _ _ _ _)

theorem queueClear_kept (n : Nat) (s : State) : Kept s (queueClear n s) := by
  unfold queueClear
  split
  · rename_i hfree
    exact pushCaption_kept (by rw [length_clearMessage]; exact hfree)
  · exact countCueDropped_kept s

theorem clearIfShowing_kept (s : State) (d : Displayed) : Kept s (clearIfShowing s d) :=
  Kept.ite _ (Kept.refl s) (queueClear_kept _ s)

theorem setCaptions_kept (l : List Displayed) (s : State) : Kept s (setCaptions l s) := kept_withText_store (by rfl)

theorem withdrawCaptions_kept (s : State) : Kept s (withdrawCaptions s) :=
  (Kept.foldl _ clearIfShowing_kept _ s).trans (setCaptions_kept _ _)

theorem reshowCaptions_kept : ∀ (l : List Displayed) (s : State), Kept s (reshowCaptions l s).2
  | [], s => Kept.refl s
  | d :: l, s => by
    unfold reshowCaptions
    dsimp only
    split
    · exact (queueShow_kept _ s).trans (reshowCaptions_kept l _)
    · exact reshowCaptions_kept l s

theorem admitT0_kept (s : State) (c : Cue) : Kept s (admitT0 s c) := by
  unfold admitT0
  split
  · exact Kept.ite _ (kept_withText_store (by rfl)) ((kept_withText_store (by rfl)).trans (countMissing_kept _))
  · exact (countCueDropped_kept s).trans (raise_kept _ _ _ _)

theorem admitT1_kept (w : Bool) (s : State) (c : Cue) : Kept s (admitT1 w s c) := by
  unfold admitT1
  dsimp only
  split
  · exact setCaptions_kept _ s
  · exact (queueShow_kept _ s).trans (setCaptions_kept _ _)

theorem runT0_kept (last u : Nat) (s : State) : Kept s (runT0 last u s) :=
  (kept_withText_store (x := { s.text with display := _, t0 := s.text.t0.moved last u }) rfl).trans
    (Kept.foldl _ admitT0_kept _ _)

theorem runT1_kept (last u : Nat) (resumed : Bool) (s : State) : Kept s (runT1 last u resumed s) := by
  have tail : ∀ (l : List Displayed) (cs : List Cue) (t1 : CueTable) (v : State),
      Kept v (cs.foldl (admitT1 false) ((setCaptions l v).withText { (setCaptions l v).text with t1 := t1 })) :=
    fun l cs t1 v => ((setCaptions_kept l v).trans (kept_withText_store (by rfl))).trans (Kept.foldl _ (admitT1_kept false) _ _)
  have lead := Kept.foldl _ clearIfShowing_kept (s.text.captions.filter (fun d => decide (d.cue.outPoint ≤ u))) s
  unfold runT1
  dsimp only
  split
  · exact (lead.trans (reshowCaptions_kept _ _)).trans (tail _ _ _ _)
  · exact lead.trans (tail _ _ _ _)

theorem markOverlay_kept (u : Nat) (s : State) (i : Nat) : Kept s (markOverlay u s i) := by
  unfold markOverlay
  split
  · exact Kept.ite _ (Kept.refl s) ((kept_withText_store (by rfl)).trans (feedResult_kept _ _))
  · exact Kept.refl s

theorem setTable_kept (slot : Nat) (x : CueTable) (s : State) : Kept s (setTable slot x s) := by
  unfold setTable
  split <;> exact kept_withText_store (by rfl)

theorem loadList_kept (g : Segment) (slot : Nat) (s : State) : Kept s (loadList g slot s) := by
  unfold loadList
  split
  · split
    · exact (setTable_kept _ _ s).trans (countBadCues_kept _ _)
    · exact Kept.refl s
  · exact Kept.refl s

theorem lateLoad_kept (slot c : Nat) (r : Resource) (s : State) : Kept s (lateLoad slot c r s) := by
  have load : ∀ (x : CueTable) (n : Nat), Kept s (countBadCues n (setTable slot x s)) := fun x n =>
    (setTable_kept slot x s).trans (countBadCues_kept _ _)
  unfold lateLoad
  dsimp only
  refine Kept.trans ?_ (raise_kept _ _ _ _)
  split
  · exact (load _ _).trans (Kept.foldl _ admitT0_kept _ _)
  · exact (load _ _).trans (Kept.foldl _ (admitT1_kept _) _ _)

theorem listReady_kept (r : Resource) (s : State) : Kept s (listReady r s) := by
  unfold listReady
  split
  · exact Kept.ite _ (lateLoad_kept _ _ r s) (Kept.refl s)
  · exact Kept.refl s

theorem clearDisplays_kept (s : State) : Kept s (clearDisplays s) :=
  (Kept.foldl _ clearIfShowing_kept _ s).trans (kept_withText_store (by rfl))

theorem textSegmentEnd_kept (i : Nat) (s : State) : Kept s (textSegmentEnd i s) :=
  (freeResources_kept _ s).trans (clearDisplays_kept _)

theorem textShowingEnd_kept (s : State) : Kept s (textShowingEnd s) :=
  (freeResources_kept _ s).trans (clearDisplays_kept _)

/-! ### Cells -/

theorem headerError_kept (s : State) : Kept s (headerError s) := by
  have h := bump_kept (f := fun c => { c with headerErrors := addTo top16 c.headerErrors 1 })
    (fun _ h => { h with headerErrors := addTo_le _ _ _ }) s
  exact Kept.ite _ ((h.trans (kept_withLink (by exact fun k => ⟨k.counters, k.timer⟩))).trans (raise_kept _ _ _ _)) h

theorem laneValid_kept (s : State) : Kept s (laneValid s) := by
  have h : ∀ u : State, Kept u (u.withLink { u.link with laneTimer := 0, laneUp := true }) := fun u =>
    kept_withLink fun k => ⟨k.counters, Nat.zero_le _⟩
  exact Kept.ite _ ((takeLaneDown_kept s).trans (h _))
    (((takeLaneDown_kept s).trans (h _)).trans (raise_kept _ _ _ _))

theorem changeOpen_kept (f : UnitRec → UnitRec) (slot : Nat) (s : State) : Kept s (changeOpen f slot s) :=
  setQueue_kept_of_le (List.length_map _).le

theorem changeOpenRes_kept (f : Resource → Resource) (slot : Nat) (s : State) : Kept s (changeOpenRes f slot s) :=
  setStore_kept (List.length_map _).le

theorem damageOpen_kept (d : Defect) (slot : Nat) (s : State) : Kept s (damageOpen d slot s) :=
  Kept.ite _ (changeOpen_kept _ slot s) (changeOpenRes_kept _ slot s)

theorem countGap_ok (c : LinkCounters) (h : CountersOk c) : CountersOk { c with gaps := addTo top16 c.gaps 1 } :=
  { h with gaps := addTo_le _ _ _ }

theorem sequenceCheck_kept (slot n : Nat) (s : State) : Kept s (sequenceCheck slot n s) := by
  have h : ∀ x : Vector TrackSlot 6, Kept s (s.withTrack { s.track with slots := x }) := fun x => kept_withTrack id
  unfold sequenceCheck
  dsimp only
  split
  · exact h _
  · exact Kept.ite _ (h _) (Kept.ite _
      (((h _).trans (bump_kept countGap_ok _)).trans (damageOpen_kept _ slot _))
      ((h _).trans (bump_kept countGap_ok _)))

theorem countOverlong_kept (s : State) : Kept s (countOverlong s) :=
  bump_kept (by exact fun _ h => { h with overlong := addTo_le _ _ _ }) s

theorem addUnitPayload_kept (slot : Nat) (p : List Byte) (s : State) : Kept s (addUnitPayload slot p s) := by
  unfold addUnitPayload
  split
  · exact Kept.refl s
  · exact Kept.ite _ (Kept.refl s)
      (Kept.ite _ ((changeOpen_kept _ slot s).trans (countOverlong_kept _)) (changeOpen_kept _ slot s))

theorem addResPayload_kept (slot : Nat) (p : List Byte) (s : State) : Kept s (addResPayload slot p s) := by
  unfold addResPayload
  split
  · exact Kept.refl s
  · refine Kept.ite _ (Kept.refl s)
      (Kept.ite _ ((changeOpenRes_kept _ slot s).trans (countOverlong_kept _)) (Kept.ite _ ?_ (changeOpenRes_kept _ slot s)))
    exact (((setStore_kept (List.length_filter_le _ _)).trans (raise_kept _ _ _ _)).trans (countRefused_kept _)).trans
      (setAssembly_kept _ _ _)

theorem addPayload_kept (slot : Nat) (p : List Byte) (s : State) : Kept s (addPayload slot p s) :=
  Kept.ite _ (addUnitPayload_kept slot p s) (addResPayload_kept slot p s)

theorem closeUnit_kept (slot : Nat) (s : State) : Kept s (closeUnit slot s) :=
  (Kept.ite _ (changeOpen_kept _ slot s) (changeOpenRes_kept _ slot s)).trans (setAssembly_kept slot _ _)

theorem truncateOpen_kept (slot : Nat) (s : State) : Kept s (truncateOpen slot s) :=
  ((damageOpen_kept _ slot s).trans (bump_kept (by exact fun _ h => { h with truncated := addTo_le _ _ _ }) _)).trans
    (closeUnit_kept slot _)

theorem countRefusal_kept (r : RefusedUnit) (s : State) : Kept s (countRefusal r s) := by
  cases r with
  | late => exact countLate_kept 1 s
  | overrun => exact bump_kept (by exact fun _ h => { h with overruns := addTo_le _ _ _ }) s
  | _ => exact countRefused_kept s

theorem createResource_kept (slot seg id len : Nat) (s : State) : Kept s (createResource slot seg id len s).2 := by
  have h : Kept s (setStore (s.text.store.filter (fun r => !r.named seg slot id)) s) :=
    setStore_kept (List.length_filter_le _ _)
  unfold createResource
  dsimp only
  split
  · exact Kept.refl s
  · split
    · exact h.trans (raise_kept _ _ _ _)
    · rename_i hroom
      refine h.trans (kept_withText ?_)
      intro k
      have hfree : freeEntries (setStore (s.text.store.filter (fun r => !r.named seg slot id)) s) ≠ 0 :=
        fun e => hroom (.inl e)
      unfold freeEntries at hfree
      rw [List.length_append, List.length_singleton]
      omega

/-- A unit is accepted where its slot has a free buffer (R47, R52). -/
theorem essenceCheck_free {slot seg unit : Nat} {s : State} (h : essenceCheck slot seg unit s = none) :
    (queueOf s slot).length < bufferCount slot := by
  unfold essenceCheck at h
  dsimp only at h
  repeat' split at h
  all_goals simp only [reduceCtorEq] at h
  all_goals
    rename_i hfree
    unfold freeBuffers at hfree
    unfold queueOf
    omega

theorem acceptUnit_kept (slot seg unit len : Nat) (s : State) : Kept s (acceptUnit slot seg unit len s).2 := by
  unfold acceptUnit
  split
  · split
    · exact Kept.refl s
    · rename_i hcheck
      refine setQueue_kept fun _ _ => ?_
      rw [List.length_append]
      exact essenceCheck_free hcheck
  · split
    · exact Kept.refl s
    · exact createResource_kept slot seg unit len s

theorem endIfMarked_kept (b : Bool) (slot : Nat) (s : State) : Kept s (endIfMarked b slot s) :=
  Kept.ite _ (closeUnit_kept slot s) (Kept.refl s)

theorem startUnit_kept (c : Cell) (s : State) : Kept s (startUnit c s) := by
  have h := acceptUnit_kept c.slot c.segment c.unitNumber c.payload.length s
  unfold startUnit
  split
  · rename_i r s1 e
    rw [e] at h
    exact (h.trans (countRefusal_kept r _)).trans (setAssembly_kept _ _ _)
  · rename_i s1 e
    rw [e] at h
    exact ((h.trans (setAssembly_kept _ _ _)).trans (addPayload_kept _ _ _)).trans (endIfMarked_kept _ _ _)

theorem assembleCell_kept (c : Cell) (s : State) : Kept s (assembleCell c s) := by
  unfold assembleCell
  split
  · exact Kept.trans (Kept.ite _ (truncateOpen_kept _ s) (Kept.refl s)) (startUnit_kept c _)
  · split
    · exact bump_kept (by exact fun _ h => { h with orphans := addTo_le _ _ _ }) s
    · exact (addPayload_kept _ _ s).trans (endIfMarked_kept _ _ _)
    · exact Kept.ite _ (setAssembly_kept _ _ s) (Kept.refl s)

theorem arriveRequest_kept (r : Request) (s : State) : Kept s (arriveRequest r s) := by
  unfold arriveRequest
  dsimp only
  split
  · rename_i hroom
    refine kept_withMgmt fun h => ⟨?_, h.replies, h.lost⟩
    rw [List.length_append]
    exact hroom
  · split
    · rename_i hroom
      refine kept_withMgmt fun h => ⟨h.requests, ?_, h.lost⟩
      rw [List.length_append]
      exact hroom
    · exact kept_withMgmt fun h => ⟨h.requests, h.replies, addTo_le _ _ _⟩

theorem receiveCell_kept (c : Cell) (s : State) : Kept s (receiveCell c s) := by
  have handled : ∀ u : State, Kept u (handleCell c u) := by
    intro u
    unfold handleCell
    split
    · exact (sequenceCheck_kept _ _ u).trans (assembleCell_kept c _)
    · exact (sequenceCheck_kept _ _ u).trans (assembleCell_kept c _)
    · exact arriveRequest_kept _ u
    · exact Kept.refl u
  exact Kept.ite _ ((laneValid_kept s).trans (handled _)) (headerError_kept s)

/-! ### The unpacking engine -/

theorem changeUnit_kept (slot seg unit : Nat) (f : UnitRec → UnitRec) (g : Resource → Resource) (s : State) :
    Kept s (changeUnit slot seg unit f g s) :=
  Kept.ite _ (setQueue_kept_of_le (List.length_map _).le) (setStore_kept (List.length_map _).le)

theorem withEngine_kept (x : Option UnpackJob) (s : State) : Kept s (s.withEngine x) :=
  kept_free (only_withEngine s x) (by decide)

theorem engineTake_kept (s : State) : Kept s (engineTake s) := by
  unfold engineTake
  split
  · exact Kept.refl s
  · split
    · exact Kept.refl s
    · split
      · exact Kept.refl s
      · exact (changeUnit_kept _ _ _ _ _ s).trans (withEngine_kept _ _)

theorem resourceReady_kept (seg slot id : Nat) (s : State) : Kept s (resourceReady seg slot id s) := by
  unfold resourceReady
  split
  · exact Kept.ite _ (listReady_kept _ s) (Kept.refl s)
  · exact Kept.refl s

theorem engineComplete_kept (s : State) : Kept s (engineComplete s) := by
  unfold engineComplete
  split
  · exact Kept.refl s
  · split
    · exact Kept.refl s
    · split
      · exact withEngine_kept _ s
      · rename_i j _ _ _ len content _
        have h := (changeUnit_kept j.slot j.seg j.unit (finishUnit j (unpack j len content))
          (finishResource j (unpack j len content)) s).trans (withEngine_kept none _)
        exact Kept.ite _ h (h.trans (resourceReady_kept _ _ _ _))

/-! ### The Sequencer at a boundary -/

theorem recordSelection_kept (l : List Nat) (c : Context) (s : State) : Kept s (recordSelection l c s) :=
  feedRecord_kept (by intro _; rfl) s

theorem recordSkipped_kept (l : List Nat) (s : State) : Kept s (recordSkipped l s) :=
  feedRecord_kept (by intro _; rfl) s

theorem enterSegment_kept (l : List Nat) (p : Nat) (s : State) : Kept s (enterSegment l p s) :=
  ((((((recordSelection_kept l _ s).trans (kept_withSeq (x := Sequencer.filled (contextFor s p) _) id)).trans
    (raise_kept _ _ _ _)).trans (Kept.foldl _ discardEntry_kept _ _)).trans (freeResources_kept _ _)).trans
      (kept_withSound (by exact fun h => h.congr rfl rfl)))

theorem timed_starvation (q : Sequencer) : q.timed.starvation = q.starvation := by
  unfold Sequencer.timed
  split <;> rfl

theorem unitEnded_starvation (q : Sequencer) : q.unitEnded.starvation = q.starvation := by
  unfold Sequencer.unitEnded
  repeat' split
  all_goals rfl

theorem leadOrPlay_starvation (c : Context) (q : Sequencer) : (q.leadOrPlay c).starvation = q.starvation := by
  unfold Sequencer.leadOrPlay
  split <;> rfl

theorem begun_starvation (c : Context) (q : Sequencer) : (q.begun c).starvation = q.starvation := by
  unfold Sequencer.begun
  split
  · rfl
  · exact leadOrPlay_starvation c q

/-- A change of the Sequencer that leaves the starvation count alone. -/
theorem kept_withSeq_eq {x : Sequencer} {s : State} (h : x.starvation = s.seq.starvation) : Kept s (s.withSeq x) :=
  kept_withSeq fun k => h ▸ k

theorem boundaryUnit_kept (s : State) : Kept s (boundaryUnit s) := by
  have h : Kept s (s.withSeq s.seq.timed) := kept_withSeq_eq (timed_starvation _)
  exact Kept.ite _ (((h.trans (feedResult_kept _ _)).trans (raise_kept _ _ _ _)).trans (textSegmentEnd_kept _ _))
    (h.trans (kept_withSeq_eq (unitEnded_starvation _)))

theorem boundarySelect_kept {c : Context} {s t : State} (h : boundarySelect c s = some t) : Kept s t := by
  unfold boundarySelect at h
  dsimp only at h
  split at h
  · cases h
    exact (enterSegment_kept _ _ s).trans (kept_withSeq_eq (begun_starvation _ _))
  · cases h

theorem boundarySkips_kept (c : Context) (s : State) : Kept s (boundarySkips c s) :=
  (recordSkipped_kept _ s).trans (Kept.foldl _ discardEntry_kept _ _)

theorem boundaryPause_kept (s : State) : Kept s (boundaryPause s) := by
  unfold boundaryPause
  split
  · exact Kept.ite _ ((kept_withSeq (x := Sequencer.pausedBy _ s.seq) id).trans (feedRecord_kept (by intro _; rfl) _))
      (Kept.refl s)
  · exact Kept.refl s

theorem boundaryResume_kept (s : State) : Kept s (boundaryResume s) :=
  Kept.ite _ ((feedRecord_kept (f := fun r => { r with pausedTime := addTo top32 r.pausedTime s.seq.pauseSteps })
    (fun _ => rfl) s).trans (kept_withSeq (by exact fun _ => Nat.zero_le _))) (Kept.refl s)

theorem recordStart_kept (s : State) : Kept s (recordStart s) :=
  feedRecord_kept (fun r => by split <;> rfl) s

theorem boundaryGo_kept (s : State) : Kept s (boundaryGo s) := by
  unfold boundaryGo
  split
  · rename_i c _
    have h : Kept s (s.withSeq (({ s.seq with ctx := some { c with holdPending := false } } : Sequencer).leadOrPlay
        { c with holdPending := false })) := kept_withSeq_eq (leadOrPlay_starvation _ _)
    exact Kept.ite _ (Kept.ite _ (h.trans (recordStart_kept _)) h) (Kept.refl s)
  · exact Kept.refl s

theorem boundaryControls_kept (s : State) : Kept s (boundaryControls s) :=
  ((boundaryPause_kept s).trans (boundaryResume_kept _)).trans (boundaryGo_kept _)

theorem handleBoundary_kept (s : State) : Kept s (handleBoundary s).after := by
  have h := boundaryUnit_kept s
  unfold handleBoundary
  dsimp only
  split
  · exact h
  · split
    · exact h
    · split
      · split
        · rename_i t e
          exact h.trans ((boundarySelect_kept e).trans (boundaryControls_kept _))
        · exact h.trans (boundarySkips_kept _ _)
      · exact h.trans (boundaryControls_kept _)

theorem endShowing_kept (c : EndCause) (s : State) : Kept s (endShowing c s) := by
  have silent : ∀ u : State, Kept u ((u.withSound u.sound.endShowing).withPicture u.picture.emptied) := fun u =>
    Kept.trans (kept_withSound (by exact fun h => h.congr rfl rfl)) (kept_free (only_withPicture _ _) (by decide))
  exact ((((((releaseAll_kept s).trans (emptyQueues_kept _)).trans (textShowingEnd_kept _)).trans
    (kept_withSeq (by exact fun _ => Nat.zero_le _))).trans (raise_kept _ _ _ _)).trans (closeShowing_kept _ _ _)).trans
      (silent _)

/-! ### Outputs and cues -/

theorem discardHeads_kept (slot : Nat) (s : State) : Kept s (discardHeads slot s) :=
  (leaveQueue_kept (by rw [List.length_drop]; exact Nat.sub_le _ _)).trans (countLate_kept _ _)

theorem withPicture_kept (x : PicturePort) (s : State) : Kept s (s.withPicture x) :=
  kept_free (only_withPicture s x) (by decide)

theorem takeDue_kept (g : Segment) (slot : Nat) (s : State) : Kept s (takeDue g slot s).2 := by
  have leaves : ∀ (b : Bool) (u : State), Kept u (if b then setQueue slot ((queueOf u slot).drop 1) u else u) :=
    fun b u => Kept.ite _ (setQueue_kept_of_le (by rw [List.length_drop]; exact Nat.sub_le _ _)) (Kept.refl u)
  have conceal : ∀ (c : Cause) (u : State), Kept u (concealSlot slot c u) := fun c u =>
    Kept.ite _ (Kept.refl u) ((withPicture_kept _ u).trans (raise_kept _ _ _ _))
  unfold takeDue
  dsimp only
  split
  · exact ((discardHeads_kept slot s).trans (leaves _ _)).trans (withPicture_kept _ _)
  · exact ((discardHeads_kept slot s).trans (leaves _ _)).trans (conceal _ _)

theorem sendRecords_kept (g : Segment) (a : Taken) (b : Option Taken) (l : List Overlay) (s : State) :
    Kept s (sendRecords g a b l s) := kept_free (sendRecords_only g a b l s) (by decide)

theorem handOutcome_kept (t : Taken) (s : State) : Kept s (handOutcome t s) := by
  unfold handOutcome
  split
  · exact kept_withSeq fun _ => Nat.zero_le _
  · have h : Kept s (s.withSeq { s.seq with starvation := addTo 240 s.seq.starvation 1 }) :=
      kept_withSeq fun _ => addTo_le _ _ _
    exact Kept.ite _ (h.trans (starve_kept _)) h

theorem runText_kept (c : Context) (r : Bool) (s : State) : Kept s (runText c r s) := by
  have load : Kept s (if s.seq.offset = 0 then loadList c.segment 5 (loadList c.segment 4 s) else s) :=
    Kept.ite _ ((loadList_kept _ _ s).trans (loadList_kept _ _ _)) (Kept.refl s)
  exact (load.trans (runT0_kept _ _ _)).trans (runT1_kept _ _ _ _)

/-- The right eye's due unit taken, in a stereo segment. -/
def takeRight (g : Segment) (s : State) : Option Taken × State :=
  if g.stereo then (some (takeDue g 1 s).1, (takeDue g 1 s).2) else (none, s)

/-- The right eye's outcome as a count, where there is one. -/
def rightConcealed : Option Taken → Nat
  | some t => concealedCount t
  | none => 0

/-- What the outcomes of the four slots bring, once the units due have been taken. -/
def carryOutput (c : Context) (resumed : Bool) (a0 : Taken) (a1 : Option Taken) (a2 a3 : Taken) (s : State) : State :=
  let s1 := s.withSound (s.sound.fed a2 a3)
  let pictures := concealedCount a0 + rightConcealed a1
  let sounds := concealedCount a2 + (if s1.sound.countsNarration then concealedCount a3 else 0)
  let s2 := countSoundConcealed sounds (countPictureConcealed pictures (countUnitOutput s1))
  let s3 := runText c resumed s2
  let u := reelUnit s3.seq
  countAtPoint c (flipPair c (handOutcome a0
    (sendRecords c.segment a0 a1 (overlayList s3 u) ((List.range 4).foldl (markOverlay u) s3))))

/-- The output of a unit: the slots take their due units in slot order, and their outcomes are carried out. -/
theorem beginOutput_eq (c : Context) (r : Bool) (s : State) :
    beginOutput c r s =
      carryOutput c r (takeDue c.segment 0 s).1 (takeRight c.segment (takeDue c.segment 0 s).2).1
        (takeDue c.segment 2 (takeRight c.segment (takeDue c.segment 0 s).2).2).1
        (takeDue c.segment 3 (takeDue c.segment 2 (takeRight c.segment (takeDue c.segment 0 s).2).2).2).1
        (takeDue c.segment 3 (takeDue c.segment 2 (takeRight c.segment (takeDue c.segment 0 s).2).2).2).2 := by
  unfold beginOutput carryOutput takeRight
  cases h : c.segment.stereo
  · simp only [h, Bool.false_eq_true, if_false, rightConcealed]
  · simp only [h, if_true, rightConcealed]

theorem takeRight_kept (g : Segment) (s : State) : Kept s (takeRight g s).2 := by
  unfold takeRight
  split
  · exact takeDue_kept g 1 s
  · exact Kept.refl s

theorem carryOutput_kept (c : Context) (r : Bool) (a0 : Taken) (a1 : Option Taken) (a2 a3 : Taken) (s : State) :
    Kept s (carryOutput c r a0 a1 a2 a3 s) := by
  have fed : Kept s (s.withSound (s.sound.fed a2 a3)) := kept_withSound fun h => h.congr rfl rfl
  refine Kept.trans ?_ (Kept.ite _ (countShowing_kept c _) (Kept.refl _))
  refine Kept.trans ?_ (kept_free (flipPair_only c _) (by decide))
  refine Kept.trans ?_ (handOutcome_kept _ _)
  refine Kept.trans ?_ (sendRecords_kept _ _ _ _ _)
  refine Kept.trans ?_ (Kept.foldl _ (markOverlay_kept _) _ _)
  refine Kept.trans ?_ (runText_kept c r _)
  exact ((fed.trans (feedResult_kept _ _)).trans (feedResult_kept _ _)).trans (feedResult_kept _ _)

theorem beginOutput_kept (c : Context) (r : Bool) (s : State) : Kept s (beginOutput c r s) := by
  have due := takeDue_kept c.segment
  rw [beginOutput_eq]
  exact ((((due 0 s).trans (takeRight_kept _ _)).trans (due 2 _)).trans (due 3 _)).trans (carryOutput_kept _ _ _ _ _ _ _)

theorem beginBlack_kept (c : Context) (b : Bool) (s : State) : Kept s (beginBlack c b s) := by
  have h : Kept s (sendBlack c.segment (s.withSound (s.sound.beginUnit false false))) :=
    (kept_withSound (by exact fun h => h.congr rfl rfl)).trans (withPicture_kept _ _)
  exact Kept.ite _ (h.trans (withdrawCaptions_kept _)) h

theorem performCue_kept (i : Nat) (a : CueAction) (s : State) : Kept s (performCue i a s) := by
  cases a with
  | line n x => exact kept_free (lineAct_only n x s) (by decide)
  | flag x y z => exact setFlagsBy_kept x y z s
  | mark v => exact raise_kept _ _ _ s
  | sound p => exact Kept.ite _ (Kept.refl s) (kept_withSound (by exact fun h => h.congr rfl rfl))

theorem fireIf_kept (b : Bool) (g : Segment) (f : Anchor → Bool) (s : State) : Kept s (fireIf b g f s) :=
  Kept.ite _ (Kept.foldl _ (fun s i => Kept.ite _ (performCue_kept i _ s) (Kept.refl s)) _ s) (Kept.refl s)

/-! ### The whole boundary -/

theorem boundaryEnds_kept (old : State) (c : EndCause) (s : State) : Kept s (boundaryEnds old c s) := by
  have h : Kept s (endShowing c (positionKept old s)) := Kept.trans (kept_withSeq (by exact id)) (endShowing_kept c _)
  refine Kept.trans ?_ (formPace_kept _)
  split
  · exact (h.trans (fireIf_kept _ _ _ _)).trans (fireIf_kept _ _ _ _)
  · exact h

theorem boundaryGoes_kept (old : State) (f : Bool) (s : State) : Kept s (boundaryGoes old f s) := by
  have reported : Kept s (boundaryReported old s) :=
    Kept.trans (kept_withSeq (x := { s.seq with pend := .none }) id) (raiseIf_kept _ _ _ _ _)
  have staged : ∀ (c : Context) (u : State), Kept u (boundaryStaged old f c u) := fun c u =>
    ((Kept.foldl _ (fun s slot => discardLate_kept slot _ s) _ u).trans (monoDiscard_kept _)).trans
      (kept_withSound (boundaryProfile_hold _))
  have carries : ∀ (c : Context) (a b : Bool) (u : State), Kept u (boundaryCarries c a b u) := fun c a b u =>
    Kept.ite _ (beginOutput_kept c b u) (beginBlack_kept c a u)
  have cues : ∀ (c : Context) (a b : Bool) (u : State), Kept u (fireCues c a b u) := fun c a b u =>
    (((fireIf_kept _ _ _ u).trans (fireIf_kept _ _ _ _)).trans (fireIf_kept _ _ _ _)).trans (fireIf_kept _ _ _ _)
  unfold boundaryGoes
  dsimp only
  split
  · exact reported.trans (formPace_kept _)
  · exact (((reported.trans (staged _ _)).trans (carries _ _ _ _)).trans (cues _ _ _ _)).trans (formPace_kept _)

theorem unitBoundaryTick_kept (s : State) : Kept s (unitBoundaryTick s) := by
  have acts : ∀ u : State, Kept u (boundaryActs u) := by
    intro u
    have h := handleBoundary_kept u
    unfold boundaryActs
    dsimp only
    split
    · exact h.trans (boundaryEnds_kept _ _ _)
    · exact h.trans (boundaryGoes_kept _ _ _)
  exact Kept.trans (kept_withSeq (by exact id)) (acts _)

/-! ### Requests, return cells and starts -/

theorem nextNumber_of_accepted {s : State} (h : cueRefusal s = none) : s.recorder.nextNumber ≠ lastNumber := by
  unfold cueRefusal at h
  split at h
  · cases h
  · split at h
    · cases h
    · split at h
      · cases h
      · split at h
        · cases h
        · split at h
          · cases h
          · assumption

theorem cueAccepted_kept (l : List Nat) (p : Nat) (s : State) (h : s.recorder.nextNumber ≠ lastNumber) :
    Kept s (cueAccepted l p s) := by
  have bound : Kept s (bindShow s) := (openShowing_kept _ s h).trans (kept_free (only_withLicences _ _) (by decide))
  refine Kept.trans ?_ (formPace_kept _)
  refine Kept.trans ?_ (raise_kept _ _ _ _)
  refine Kept.trans ?_ (withPicture_kept _ _)
  refine Kept.trans ?_ (withPicture_kept _ _)
  exact ((bound.trans (enterSegment_kept l p _)).trans (kept_withSeq (x := Sequencer.cued _) id)).trans
    (kept_withSound (cueShow_hold _))

theorem countersOk_zero : CountersOk LinkCounters.zero := by constructor <;> exact Nat.zero_le _

theorem storedMask_legal (m : BitVec 32) (u : ReportUnit) : MaskLegal { u with mask := storedMask m } := by
  refine ⟨?_, storedMask_reportsLost m⟩
  have hlow : storedMask m = ((storedMask m).setWidth 23).setWidth 32 := by
    refine BitVec.eq_of_getLsbD_eq fun k hk => ?_
    rw [BitVec.getLsbD_setWidth, BitVec.getLsbD_setWidth]
    by_cases h : k < 23
    · simp [h, hk]
    · simp [h, storedMask_unnamed m (Nat.le_of_not_lt h)]
  show (storedMask m).toNat < 8388608
  rw [hlow, BitVec.toNat_setWidth]
  have hlt := ((storedMask m).setWidth 23).isLt
  exact lt_of_le_of_lt (Nat.mod_le _ _) hlt

theorem granted_kept {s t : State} (h : Granted s t) : Kept s t := by
  cases h with
  | unchanged => exact Kept.refl s
  | status =>
    exact (kept_withLink (by exact fun h => ⟨countersOk_zero, h.timer⟩)).trans
      (kept_withMgmt (by exact fun h => ⟨h.requests, h.replies, Nat.zero_le _⟩))
  | clock n k hk => exact (kept_withClock (by exact fun _ => hk)).trans (lapseCheck_kept _)
  | key p key i => exact kept_free (only_withLicences s _) (by decide)
  | erased i g => exact kept_free (only_withLicences s _) (by decide)
  | entry i e he => exact kept_free (only_withShowList s _) (by decide)
  | cleared l hl => exact kept_free (only_withShowList s _) (by decide)
  | cues x => exact kept_free (only_withCues s _) (by decide)
  | sound q hr hw => exact kept_withSound fun h => h.congr hr hw
  | lines x => exact kept_free (only_withLines s _) (by decide)
  | input n c => exact configureInput_kept n c s
  | opened l p hr hs => exact cueAccepted_kept l p s (nextNumber_of_accepted hr)
  | go => exact takeGo_kept s
  | pause => exact takePause_kept s
  | resume => exact takeResume_kept s
  | stop => exact takeStop_kept s
  | flags x y z => exact setFlagsBy_kept x y z s
  | limits a b => exact kept_of_steers (only_withSeq s _) (limited_steers a b _) (List.nil_subset _)
  | starving a b =>
    exact (kept_of_steers (only_withSeq s _) (limited_steers a b _) (List.nil_subset _)).trans (starve_kept _)
  | marked n => exact marked_kept n s
  | mask m => exact kept_withReports fun h => ⟨h.queue, h.lost, storedMask_legal m s.reports⟩

/-- A reply joins the list where the list has a place (R173). -/
theorem answered_kept {s : State} (r : Request) (a : Answer) (h : Granted s a.after)
    (hroom : s.mgmt.replies.length < Config.replyPlaces) : Kept s (answered r a) := by
  refine (granted_kept h).trans (kept_withMgmt ?_)
  refine fun k => ⟨?_, ?_, k.lost⟩
  · rw [List.length_drop]
    exact (Nat.sub_le _ _).trans k.requests
  · rw [List.length_append, h.lists.2]
    exact hroom

theorem sendNext_kept (s : State) : Kept s (sendNext s) := by
  have lane : ∀ (u : State) (k g : Nat) (p : List Byte), Kept u (u.withLane (u.lane.begin k g p)) := fun u k g p =>
    kept_withLane fun _ => Nat.mod_lt _ (by decide)
  unfold sendNext
  split
  · exact kept_withLane fun _ => Nat.mod_lt _ (by decide)
  · rename_i r rest _ hq
    refine Kept.trans (kept_withMgmt ?_) (lane _ _ _ _)
    intro h
    have hlen := h.replies
    rw [hq] at hlen
    exact ⟨h.requests, (Nat.le_succ _).trans hlen, h.lost⟩
  · rename_i r rest _ _ hq
    refine Kept.trans (kept_withReports ?_) (lane _ _ _ _)
    intro h
    have hlen := h.queue
    rw [hq, List.length_cons] at hlen
    unfold reportLeaves
    split
    · refine ⟨?_, Nat.zero_le _, h.mask⟩
      simpa using hlen
    · exact ⟨(Nat.le_succ _).trans hlen, h.lost, h.mask⟩
  · exact Kept.refl s

theorem fullMask_legal (l : List Report) (n : Nat) : MaskLegal ⟨l, ReportUnit.fullMask, n⟩ := by
  constructor
  · show (0x007FFFFF#32).toNat < 8388608
    decide
  · rw [getLsbD_fullMask]
    rfl

theorem restart_hold (q : SoundEngine) : RingsHold q.restart := by
  have hw : 0 < Config.ringLength := by decide
  exact ⟨fun r hr => reset_rings_wf r hr, hw⟩

theorem reset_queues {k : Nat} (h : k < 4) : bankGet State.coldTrack.queues k = [] := by
  simp [bankGet, State.coldTrack, h]

/-- The bounds of a Track Assembler whose queues are empty. -/
theorem tracksOk_of_empty {x : TrackAssembler} (h : x.queues = Vector.replicate 4 []) : TracksOk x := by
  intro k hk
  have e : bankGet x.queues k = [] := by simp [bankGet, h, hk]
  rw [e]
  exact Nat.zero_le _

theorem reset_ordered : LogOrdered State.reset.recorder where
  rising := List.Pairwise.nil
  below _ h := absurd h List.not_mem_nil
  places := Nat.zero_le _
  top := by decide
  open_above h := absurd h (by decide)
  open_below h := absurd h (by decide)

theorem coldStart_kept (s : State) : Kept s (coldStart s) := fun p => by
  have hqueue : State.reset.reports.queue.length ≤ Config.reportPlaces := by decide
  have hsequence : State.reset.lane.sequence < 65536 := by decide
  have hwrite : State.reset.sound.writeIndex < Config.ringLength := by decide
  cases p with
  | track => exact fun _ => tracksOk_of_empty rfl
  | mgmt => exact fun _ => ⟨Nat.zero_le _, Nat.zero_le _, Nat.zero_le _⟩
  | reports => exact fun _ => ⟨hqueue, Nat.zero_le _, fullMask_legal _ _⟩
  | link => exact fun _ => ⟨countersOk_zero, Nat.zero_le _⟩
  | recorder => exact ⟨fun _ => Nat.zero_le _, fun _ => reset_ordered⟩
  | caption => exact fun _ => Nat.zero_le _
  | text => exact fun _ => Nat.zero_le _
  | seq => exact fun _ => Nat.zero_le _
  | clock => exact fun _ => Nat.zero_le _
  | lane => exact fun _ => hsequence
  | sound => exact fun _ => ⟨reset_rings_wf, hwrite⟩
  | _ => trivial

theorem volatileReset_kept (power : Supplies) (s : State) : Kept s (volatileReset power s) := fun p => by
  have hsequence : State.reset.lane.sequence < 65536 := by decide
  cases p with
  | track => exact fun _ => tracksOk_of_empty rfl
  | mgmt => exact fun _ => ⟨Nat.zero_le _, Nat.zero_le _, Nat.zero_le _⟩
  | reports => exact fun _ => ⟨Nat.zero_le _, Nat.zero_le _, fullMask_legal _ _⟩
  | link => exact fun _ => ⟨countersOk_zero, Nat.zero_le _⟩
  | recorder => exact ⟨id, id⟩
  | caption => exact fun _ => Nat.zero_le _
  | text => exact fun _ => Nat.zero_le _
  | seq => exact fun _ => Nat.zero_le _
  | clock => exact id
  | lane => exact fun _ => hsequence
  | sound => exact fun _ => restart_hold _
  | _ => trivial

theorem startWarm_kept (s : State) : Kept s (startWarm s) := Kept.ite _ (raise_kept _ _ _ s) (raise_kept _ _ _ s)

theorem warmStart_kept (s : State) : Kept s (warmStart s) :=
  ((((volatileReset_kept _ s).trans (startWarm_kept _)).trans (releaseAll_kept _)).trans
    (closeShowing_kept _ _ _)).trans (lapseCheck_kept _)

theorem resetBlocks_kept (s : State) : Kept s (resetBlocks s) := fun p => by
  cases p with
  | track => exact fun _ => tracksOk_of_empty rfl
  | mgmt => exact fun h => ⟨Nat.zero_le _, h.replies, Nat.zero_le _⟩
  | reports => exact fun _ => ⟨Nat.zero_le _, Nat.zero_le _, fullMask_legal _ _⟩
  | link => exact fun h => ⟨countersOk_zero, h.timer⟩
  | recorder => exact ⟨id, id⟩
  | caption => exact fun _ => Nat.zero_le _
  | text => exact fun _ => Nat.zero_le _
  | seq => exact fun _ => Nat.zero_le _
  | clock => exact id
  | lane => exact id
  | sound => exact fun _ => restart_hold _
  | _ => trivial

theorem managementReset_kept (s : State) : Kept s (managementReset s) :=
  (((resetBlocks_kept s).trans (releaseAll_kept _)).trans (closeShowing_kept _ _ _)).trans (formPace_kept _)

/-! ### Every step -/

theorem acts_kept {s t : State} (h : Acts s t) : Kept s t := by
  cases h with
  | waits => exact Kept.refl s
  | request r a hp hr ha => exact answered_kept r a ha hr
  | managementReset r hp hr => exact (answered_kept r (accept [] s) .unchanged hr).trans (managementReset_kept _)
  | cell c => exact receiveCell_kept c s
  | boundary hp hc => exact unitBoundaryTick_kept s
  | tick hc ht => exact kept_withSeq id
  | sample => exact sampleTick_kept s
  | byteTime =>
    refine kept_withCaption fun h => ?_
    simp only [CaptionLine.byteTime, List.length_drop]
    omega
  | divider => exact dividerTick_kept s
  | laneDown => exact takeLaneDown_kept s
  | millisecond pins => exact lineMillisecondTick_kept pins s
  | spanEnd n => exact kept_free (takeSpanEnd_only s n) (by decide)
  | edge n => exact takeEdge_kept s n
  | take => exact engineTake_kept s
  | complete => exact engineComplete_kept s
  | abandon => exact kept_free (engineAbandon_only s) (by decide)
  | sendStart => exact sendNext_kept s
  | sendEnd => exact kept_withLane id
  | coldStart => exact coldStart_kept s
  | warmStart => exact warmStart_kept s
  | mainLoss => exact volatileReset_kept _ s
  | backupLoss => exact kept_free (only_withSupplies s _) (by decide)

theorem step_kept {s t : State} (h : step s = .next t) : Kept s t := by
  obtain ⟨l, ha⟩ := step_acts h
  exact (kept_free (only_withPending s l) (by decide)).trans (acts_kept ha)

/-- Settles O54, block by block. -/
theorem stepKeepsBounds : Obligations.step_keeps_bounds := by
  intro s t hb hc hm hstep
  have h := step_kept hstep
  have mgmt := h .mgmt ⟨hb.requests, hb.replies, hc.requestsLost⟩
  have reports := h .reports ⟨hb.reports, hc.reportsLost, hm⟩
  have link := h .link ⟨⟨hc.headerErrors, hc.gaps, hc.orphans, hc.overruns, hc.truncated, hc.overlong, hc.late,
    hc.refused⟩, hc.laneTimer⟩
  have counters := link.counters
  exact ⟨⟨h .track hb.tracks, mgmt.requests, mgmt.replies, reports.queue, (h .recorder).1 hb.log,
      h .caption hb.caption, h .text hb.store⟩,
    ⟨counters.headerErrors, counters.gaps, counters.orphans, counters.overruns, counters.truncated,
      counters.overlong, counters.late, counters.refused, link.timer, mgmt.lost, reports.lost, h .seq hc.starvation,
      h .clock hc.fraction, h .lane hc.sequence⟩, reports.mask⟩

/-- Settles O55: every operation keeps the Sound Engine's rings, a sample instant by the clamp of R114. -/
theorem stepKeepsDelayRings : Obligations.step_keeps_delay_rings := fun _ _ h hstep => step_kept hstep .sound h

/-- Settles O56: the log changes at a close and a collection alone, and the next number rises as a showing opens. -/
theorem stepKeepsLogOrdered : Obligations.step_keeps_log_ordered := fun _ _ h hstep => (step_kept hstep .recorder).2 h

end Sys2Proof.Machine
end

section
/-! PROOF. The Sequencer kept in accord with its context over every step (R5, R6, R26, R28): the steps of R13 one by one,
what the rest of a boundary leaves of the Sequencer, and O58. -/

namespace Sys2Proof.Machine

/-! ### What stands of the Sequencer -/

/-- The Sequencer changed in nothing but what steers it and its starvation count: state, context, position, unit clock
and showing time stand. -/
def Sequencer.Stands (q r : Sequencer) : Prop :=
  r = { q with
    pend := r.pend
    held := r.held
    flags := r.flags
    pauseSteps := r.pauseSteps
    pauseLimit := r.pauseLimit
    starveLimit := r.starveLimit
    starvation := r.starvation }

theorem Sequencer.Stands.refl (q : Sequencer) : q.Stands q := rfl

theorem Sequencer.Stands.trans {q r x : Sequencer} (h : q.Stands r) (k : r.Stands x) : q.Stands x := by
  unfold Sequencer.Stands at *
  rw [k, h]

theorem Sequencer.Steers.stands {q r : Sequencer} (h : q.Steers r) : q.Stands r := by
  unfold Sequencer.Steers at h
  unfold Sequencer.Stands
  rw [h]

theorem stands_of_only {ps : List Part} {s t : State} (h : Only ps s t) (hp : Part.seq ∉ ps) : s.seq.Stands t.seq :=
  (show t.seq = s.seq from h.eq .seq hp) ▸ Sequencer.Stands.refl _

theorem foldl_stands {α : Type} (f : State → α → State) (h : ∀ (s : State) (a : α), s.seq.Stands (f s a).seq) :
    ∀ (l : List α) (s : State), s.seq.Stands (l.foldl f s).seq
  | [], s => .refl s.seq
  | a :: l, s => (h s a).trans (foldl_stands f h l (f s a))

theorem ite_stands {s t u : State} (c : Prop) [Decidable c] (h : s.seq.Stands t.seq) (k : s.seq.Stands u.seq) :
    s.seq.Stands (if c then t else u).seq := by
  split
  · exact h
  · exact k

theorem settleDue_stands (s : State) : s.seq.Stands (settleDue s).seq :=
  ((stands_of_only (Only.foldl takeSpanEnd takeSpanEnd_only _ s) (by decide)).trans
    (foldl_stands takeEdge (fun s n => (takeEdge_steers s n).stands) _ _)).trans
      (stands_of_only (takeLaneDown_only _) (by decide))

theorem lineMillisecondTick_stands (pins : Mask8) (s : State) : s.seq.Stands (lineMillisecondTick pins s).seq := by
  have count : ∀ u : State, u.seq.Stands (countLineMs pins u).seq := fun u => .refl u.seq
  exact (settleDue_stands s).trans (count _)

theorem handOutcome_stands (t : Taken) (s : State) : s.seq.Stands (handOutcome t s).seq := by
  unfold handOutcome
  split
  · rfl
  · dsimp only
    split <;> rfl

theorem performCue_stands (i : Nat) (a : CueAction) (s : State) : s.seq.Stands (performCue i a s).seq := by
  cases a with
  | line n x => rfl
  | flag x y z => rfl
  | mark v => rfl
  | sound p =>
    unfold performCue
    dsimp only
    split <;> rfl

theorem fireIf_stands (b : Bool) (g : Segment) (f : Anchor → Bool) (s : State) :
    s.seq.Stands (fireIf b g f s).seq :=
  ite_stands _ (foldl_stands _ (fun s i => ite_stands _ (performCue_stands i _ s) (.refl _)) _ s) (.refl _)

theorem fireCues_stands (c : Context) (a b : Bool) (s : State) : s.seq.Stands (fireCues c a b s).seq :=
  (((fireIf_stands _ _ _ s).trans (fireIf_stands _ _ _ _)).trans (fireIf_stands _ _ _ _)).trans
    (fireIf_stands _ _ _ _)

theorem fireEndCues_stands (g : Segment) (c : EndCause) (s : State) : s.seq.Stands (fireEndCues g c s).seq :=
  (fireIf_stands _ _ _ s).trans (fireIf_stands _ _ _ _)

theorem takeRight_only (g : Segment) (s : State) :
    Only [.track, .engine, .link, .picture, .reports] s (takeRight g s).2 := by
  unfold takeRight
  split
  · exact takeDue_only g 1 s
  · exact Only.refl _ s

theorem carryOutput_stands (c : Context) (r : Bool) (a0 : Taken) (a1 : Option Taken) (a2 a3 : Taken) (s : State) :
    s.seq.Stands (carryOutput c r a0 a1 a2 a3 s).seq := by
  refine Sequencer.Stands.trans ?_ (stands_of_only (countAtPoint_only c _) (by decide))
  refine Sequencer.Stands.trans ?_ (stands_of_only (flipPair_only c _) (by decide))
  refine Sequencer.Stands.trans ?_ (handOutcome_stands _ _)
  refine Sequencer.Stands.trans ?_ (stands_of_only (sendRecords_only _ _ _ _ _) (by decide))
  refine Sequencer.Stands.trans ?_ (stands_of_only (Only.foldl _ (markOverlay_only _) _ _) (by decide))
  refine Sequencer.Stands.trans ?_ (stands_of_only (runText_only c r _) (by decide))
  rfl

theorem beginOutput_stands (c : Context) (r : Bool) (s : State) : s.seq.Stands (beginOutput c r s).seq := by
  have due : ∀ (slot : Nat) (u : State), u.seq.Stands (takeDue c.segment slot u).2.seq := fun slot u =>
    stands_of_only (takeDue_only c.segment slot u) (by decide)
  have right : ∀ u : State, u.seq.Stands (takeRight c.segment u).2.seq := fun u =>
    stands_of_only (takeRight_only c.segment u) (by decide)
  rw [beginOutput_eq]
  exact ((((due 0 s).trans (right _)).trans (due 2 _)).trans (due 3 _)).trans (carryOutput_stands _ _ _ _ _ _ _)

theorem boundaryCarries_stands (c : Context) (a b : Bool) (s : State) : s.seq.Stands (boundaryCarries c a b s).seq :=
  ite_stands _ (beginOutput_stands c b s) (stands_of_only (beginBlack_only c a s) (by decide))

theorem boundaryReported_stands (old s : State) : s.seq.Stands (boundaryReported old s).seq :=
  (show s.seq.Stands (s.withSeq { s.seq with pend := .none }).seq from rfl).trans
    (stands_of_only (raiseIf_only _ _ _ _ _) (by decide))

/-- A boundary that goes on leaves state, context and position as the steps of R13 left them. -/
theorem boundaryGoes_stands (old : State) (f : Bool) (s : State) : s.seq.Stands (boundaryGoes old f s).seq := by
  have h := boundaryReported_stands old s
  unfold boundaryGoes
  dsimp only
  split
  · exact h.trans (stands_of_only (formPace_only _) (by decide))
  · exact (((h.trans (stands_of_only (boundaryStaged_only old f _ _) (by decide))).trans
      (boundaryCarries_stands _ _ _ _)).trans (fireCues_stands _ _ _ _)).trans
        (stands_of_only (formPace_only _) (by decide))

/-! ### The end of a showing -/

/-- The end of a showing leaves the Sequencer as R18 gives. -/
theorem endShowing_stands (c : EndCause) (s : State) : ∃ q : Sequencer, q.ended.Stands (endShowing c s).seq := by
  have close : ∀ (u : State) (n : Nat),
      u.seq.ended.Stands (closeShowing c n (raise .showState SeqState.idle.code c.code (u.withSeq u.seq.ended))).seq :=
    fun u n => (show u.seq.ended.Stands (u.withSeq u.seq.ended).seq from rfl).trans
      ((stands_of_only (raise_only _ _ _ _) (by decide)).trans (stands_of_only (closeShowing_only _ _ _) (by decide)))
  have silent : ∀ {q : Sequencer} (v : State), q.Stands v.seq →
      q.Stands ((v.withSound v.sound.endShowing).withPicture v.picture.emptied).seq := fun _ h => h
  unfold endShowing
  dsimp only
  generalize textShowingEnd (emptyQueues (releaseAll s)) = u
  exact ⟨u.seq, silent _ (close u _)⟩

/-- A boundary that ends the showing leaves the Sequencer in IDLE, but for what its cues steer. -/
theorem boundaryEnds_stands (old : State) (c : EndCause) (s : State) :
    ∃ q : Sequencer, q.ended.Stands (boundaryEnds old c s).seq := by
  obtain ⟨q, hq⟩ := endShowing_stands c (positionKept old s)
  unfold boundaryEnds
  dsimp only
  generalize endShowing c (positionKept old s) = u at hq ⊢
  refine ⟨q, Sequencer.Stands.trans ?_ (stands_of_only (formPace_only _) (by decide))⟩
  split
  · exact hq.trans (fireEndCues_stands _ _ _)
  · exact hq

/-! ### The Sequencer while a show runs -/

/-- The Sequencer while a show runs: not IDLE, the unit clock running below its ticks per unit, the position within the
context's segment, and PAUSED entered from a running state. -/
structure Sequencer.Runs (q : Sequencer) : Prop where
  busy : q.state ≠ .idle
  clock : q.clockRunning = true
  place : ∃ c, q.ctx = some c ∧ q.seg = c.played ∧ q.offset < c.segment.duration
  ticks : q.tickCount < q.ticksPerUnit
  pausedFrom : q.pausedFrom ≠ some .idle

/-- The Sequencer in IDLE. -/
structure Sequencer.Rests (q : Sequencer) : Prop where
  idle : q.state = .idle
  ctx : q.ctx = none
  clock : q.clockRunning = false
  seg : q.seg = 0
  offset : q.offset = 0
  pausedFrom : q.pausedFrom ≠ some .idle

/-- Every entry of the show list has a unit. -/
def DurationsHold (l : Vector Entry 128) : Prop := ∀ e ∈ l.toList, 1 ≤ e.duration

theorem sequencerHolds_of_runs {s : State} (hl : DurationsHold s.showList) (h : s.seq.Runs) : SequencerHolds s :=
  ⟨hl, fun e => absurd e h.busy, fun _ => ⟨h.clock, h.place⟩, fun _ => h.ticks, h.pausedFrom⟩

theorem sequencerHolds_of_rests {s : State} (hl : DurationsHold s.showList) (h : s.seq.Rests) : SequencerHolds s :=
  ⟨hl, fun _ => ⟨h.ctx, h.clock, h.seg, h.offset⟩, fun e => absurd h.idle e,
    fun e => absurd (h.clock.symm.trans e) (by decide), h.pausedFrom⟩

/-- In accord with its context, the Sequencer rests or runs. -/
theorem SequencerHolds.cases {s : State} (h : SequencerHolds s) : s.seq.Rests ∨ s.seq.Runs := by
  by_cases hs : s.seq.state = .idle
  · obtain ⟨hctx, hclock, hseg, hoffset⟩ := h.idle hs
    exact .inl ⟨hs, hctx, hclock, hseg, hoffset, h.pausedFrom⟩
  · obtain ⟨hclock, hplace⟩ := h.running hs
    exact .inr ⟨hs, hclock, hplace, h.ticks hclock, h.pausedFrom⟩

theorem SequencerHolds.runs {s : State} (h : SequencerHolds s) (hc : s.seq.clockRunning = true) : s.seq.Runs := by
  rcases h.cases with hr | hr
  · exact absurd (hr.clock.symm.trans hc) (by decide)
  · exact hr

theorem Sequencer.Runs.of_stands {q r : Sequencer} (h : q.Runs) (k : q.Stands r) : r.Runs := by
  rw [k]
  exact ⟨h.busy, h.clock, h.place, h.ticks, h.pausedFrom⟩

theorem Sequencer.Rests.of_stands {q r : Sequencer} (h : q.Rests) (k : q.Stands r) : r.Rests := by
  rw [k]
  exact ⟨h.idle, h.ctx, h.clock, h.seg, h.offset, h.pausedFrom⟩

/-- What leaves the show list alone and stands the Sequencer keeps the two in accord. -/
theorem SequencerHolds.of_stands {s t : State} (h : SequencerHolds s) (hl : t.showList = s.showList)
    (hq : s.seq.Stands t.seq) : SequencerHolds t := by
  have hd : DurationsHold t.showList := hl ▸ h.durations
  rcases h.cases with hr | hr
  · exact sequencerHolds_of_rests hd (hr.of_stands hq)
  · exact sequencerHolds_of_runs hd (hr.of_stands hq)

theorem SequencerHolds.of_only {ps : List Part} {s t : State} (h : SequencerHolds s) (k : Only ps s t)
    (hs : Part.seq ∉ ps) (hl : Part.showList ∉ ps) : SequencerHolds t :=
  h.of_stands (k.eq .showList hl) (stands_of_only k hs)

theorem ended_rests (q : Sequencer) : q.ended.Rests := ⟨rfl, rfl, rfl, rfl, rfl, nofun⟩

/-! ### The entries selected -/

theorem showLength_le (l : Vector Entry 128) : showLength l ≤ 128 := by
  have h := List.findIdx_le_length (xs := l.toList) (p := fun e => e.cls == .empty)
  simpa [showLength] using h

theorem selectAt_lt {l : Vector Entry 128} {flags : Mask8} {start p : Nat}
    (h : (selectAt l flags start).2 = some p) : p < showLength l :=
  List.mem_range.1 ((List.drop_sublist _ _).subset (selectFrom_mem h))

theorem validAlternate_lt {l : Vector Entry 128} {p a : Nat} (h : validAlternate l p = some a) : a < showLength l := by
  unfold validAlternate at h
  dsimp only at h
  split at h
  · cases h
  · split at h
    · rename_i hc
      cases h
      simp only [Bool.and_eq_true, decide_eq_true_eq] at hc
      exact hc.1.1.1.1.2
    · cases h

theorem playedMember_lt {l : Vector Entry 128} {p : Nat} (h : p < showLength l) : (playedMember l p).1 < 128 := by
  have hlen := showLength_le l
  unfold playedMember
  split
  · exact h.trans_le hlen
  · rename_i a ha
    split
    · exact (validAlternate_lt ha).trans_le hlen
    · exact h.trans_le hlen

/-- The segment of a context selected has a unit. -/
theorem contextFor_duration {s : State} {p : Nat} (hl : DurationsHold s.showList) (hp : p < showLength s.showList) :
    0 < (contextFor s p).segment.duration :=
  hl _ (bankGet_mem s.showList _ (playedMember_lt hp))

/-! ### The steps of R13 -/

theorem EditRate.ticks_pos (e : EditRate) : 0 < e.ticks := by cases e <;> decide

theorem timed_runs {q : Sequencer} (h : q.Runs) : q.timed.Runs := by
  unfold Sequencer.timed
  split
  · exact ⟨h.busy, h.clock, h.place, h.ticks, h.pausedFrom⟩
  · exact h

theorem inPlaying_runs {q : Sequencer} (h : q.Runs) : q.inPlaying.Runs := by
  obtain ⟨c, hc, hseg, hoff⟩ := h.place
  exact ⟨(fun e => SeqState.noConfusion e), h.clock, ⟨c, hc, hseg, Nat.zero_lt_of_lt hoff⟩, h.ticks, h.pausedFrom⟩

theorem leadOrPlay_runs (c : Context) {q : Sequencer} (h : q.Runs) : (q.leadOrPlay c).Runs := by
  unfold Sequencer.leadOrPlay
  split
  · exact ⟨(fun e => SeqState.noConfusion e), h.clock, h.place, h.ticks, h.pausedFrom⟩
  · exact inPlaying_runs h

theorem begun_runs (c : Context) {q : Sequencer} (h : q.Runs) : (q.begun c).Runs := by
  unfold Sequencer.begun
  split
  · exact ⟨(fun e => SeqState.noConfusion e), h.clock, h.place, h.ticks, h.pausedFrom⟩
  · exact leadOrPlay_runs c h

/-- Step 1 of R13 stays within the segment where its last unit has not ended. -/
theorem unitEnded_runs {q : Sequencer} (h : q.Runs) (hl : q.atLastUnit = false) : q.unitEnded.Runs := by
  unfold Sequencer.unitEnded
  split
  · rename_i hst
    obtain ⟨c, hc, hseg, -⟩ := h.place
    simp only [Sequencer.atLastUnit, hc, hst, beq_self_eq_true, Bool.true_and, decide_eq_false_iff_not,
      Nat.not_le] at hl
    exact ⟨h.busy, h.clock, ⟨c, hc, hseg, hl⟩, h.ticks, h.pausedFrom⟩
  · have h0 : ({ q with leadRemaining := 0 } : Sequencer).Runs := ⟨h.busy, h.clock, h.place, h.ticks, h.pausedFrom⟩
    split
    · exact inPlaying_runs h0
    · exact ⟨h.busy, h.clock, h.place, h.ticks, h.pausedFrom⟩
  all_goals exact h

theorem filled_runs {c : Context} {q : Sequencer} (h : q.Runs) (hd : 0 < c.segment.duration) (ht : q.tickCount = 0) :
    (q.filled c).Runs :=
  ⟨h.busy, h.clock, ⟨c, rfl, rfl, hd⟩, ht.trans_lt (EditRate.ticks_pos _), h.pausedFrom⟩

theorem pausedBy_runs {cause : PauseCause} {q : Sequencer} (h : q.Runs) : (q.pausedBy cause).Runs :=
  ⟨(fun e => SeqState.noConfusion e), h.clock, h.place, h.ticks, fun e => h.busy (Option.some.inj e)⟩

theorem resumed_runs {q : Sequencer} (h : q.Runs) : q.resumed.Runs := by
  refine ⟨?_, h.clock, h.place, h.ticks, nofun⟩
  show q.pausedFrom.getD .playing ≠ .idle
  cases hp : q.pausedFrom with
  | none => exact fun e => SeqState.noConfusion e
  | some st => exact fun e => h.pausedFrom (hp.trans (congrArg some e))

theorem boundaryPause_runs {s : State} (h : s.seq.Runs) : (boundaryPause s).seq.Runs := by
  unfold boundaryPause
  split
  · split
    · exact pausedBy_runs h
    · exact h
  · exact h

theorem boundaryResume_runs {s : State} (h : s.seq.Runs) : (boundaryResume s).seq.Runs := by
  unfold boundaryResume
  split
  · exact resumed_runs h
  · exact h

theorem boundaryGo_runs {s : State} (h : s.seq.Runs) : (boundaryGo s).seq.Runs := by
  unfold boundaryGo
  split
  · rename_i c hc
    obtain ⟨c', hc', hseg, hoff⟩ := h.place
    have hcc : c' = c := Option.some.inj (hc'.symm.trans hc)
    subst hcc
    have hd : ({ s.seq with ctx := some { c' with holdPending := false } } : Sequencer).Runs :=
      ⟨h.busy, h.clock, ⟨_, rfl, hseg, hoff⟩, h.ticks, h.pausedFrom⟩
    have hgo := leadOrPlay_runs { c' with holdPending := false } hd
    split
    · dsimp only
      split
      · exact hgo
      · exact hgo
    · exact h
  · exact h

theorem boundaryControls_runs {s : State} (h : s.seq.Runs) : (boundaryControls s).seq.Runs :=
  boundaryGo_runs (boundaryResume_runs (boundaryPause_runs h))

theorem enterSegment_seq (l : List Nat) (p : Nat) (s : State) :
    (enterSegment l p s).seq = s.seq.filled (contextFor s p) := by
  have h1 := (raise_only .segmentStart (contextFor s p).played (contextFor s p).principal
    ((recordSelection l (contextFor s p) s).withSeq (s.seq.filled (contextFor s p)))).eq .seq (by decide)
  have h2 := fun u => (((Only.foldl discardEntry discardEntry_only (l ++ (contextFor s p).other.toList) u).trans
    (textSelection_only (contextFor s p) _)).eq .seq (by decide))
  exact (h2 _).trans h1

theorem boundaryUnit_seq (s : State) :
    (boundaryUnit s).seq = if s.seq.atLastUnit then s.seq.timed else s.seq.timed.unitEnded := by
  unfold boundaryUnit
  dsimp only
  split
  · exact (((feedResult_only _ _).trans (raise_only _ _ _ _)).trans (textSegmentEnd_only _ _)).eq .seq (by decide)
  · rfl

theorem timed_atLastUnit (q : Sequencer) : q.timed.atLastUnit = q.atLastUnit := by
  unfold Sequencer.timed
  split <;> rfl

/-- The steps of R13 leave a Sequencer that runs, where they do not end the showing. -/
theorem handleBoundary_runs {s : State} (hl : DurationsHold s.showList) (h : s.seq.Runs) (ht : s.seq.tickCount = 0)
    (he : (handleBoundary s).ended = none) : (handleBoundary s).after.seq.Runs := by
  have htimed := timed_runs h
  have hlist : (boundaryUnit s).showList = s.showList := (boundaryUnit_only s).eq .showList (by decide)
  have hticks : s.seq.timed.tickCount = 0 := by
    unfold Sequencer.timed
    split <;> exact ht
  unfold handleBoundary at he ⊢
  dsimp only at he ⊢
  split
  · rename_i hstop
    rw [if_pos hstop] at he
    cases he
  · rename_i hstop
    rw [if_neg hstop] at he
    split
    · rename_i htime
      rw [if_pos htime] at he
      cases he
    · rename_i htime
      rw [if_neg htime] at he
      have hunit := boundaryUnit_seq s
      split
      · rename_i c hlast hctx
        rw [if_pos hlast] at hunit
        simp only [hlast, hctx] at he
        unfold boundarySelect at he ⊢
        dsimp only at he ⊢
        cases hsel : (selectAt (boundaryUnit s).showList (boundaryUnit s).seq.flags (c.principal + 1)).2 with
        | some p =>
          have hp := contextFor_duration (s := boundaryUnit s) (hlist.symm ▸ hl) (selectAt_lt hsel)
          refine boundaryControls_runs (begun_runs _ ?_)
          rw [enterSegment_seq, hunit]
          exact filled_runs htimed hp hticks
        | none =>
          rw [hsel] at he
          cases he
      · rename_i hgo
        refine boundaryControls_runs ?_
        obtain ⟨c, hc, -, -⟩ := h.place
        have hlast : s.seq.atLastUnit = false := by
          cases hb : s.seq.atLastUnit with
          | false => rfl
          | true => exact absurd hc (hgo c hb)
        rw [hunit, hlast]
        exact unitEnded_runs htimed ((timed_atLastUnit _).trans hlast)

theorem flipped_durations {l : Vector Entry 128} (i : Nat) (h : DurationsHold l) :
    DurationsHold (bankSet l i (bankGet l i).flipped) := fun e he => by
  by_cases hi : i < 128
  · rcases mem_bankSet he with rfl | he
    · exact h (bankGet l i) (bankGet_mem l i hi)
    · exact h e he
  · rw [bankSet_past l i _ (Nat.le_of_not_lt hi)] at he
    exact h e he

/-! ### The show list at a boundary -/

/-- A unit's output changes the show list by a flip alone (R19). -/
theorem carryOutput_showList (c : Context) (r : Bool) (a0 : Taken) (a1 : Option Taken) (a2 a3 : Taken) (s : State) :
    ∃ u : State, u.showList = s.showList ∧ (carryOutput c r a0 a1 a2 a3 s).showList = (flipPair c u).showList := by
  refine ⟨_, ?_, (countAtPoint_only c _).eq .showList (by decide)⟩
  refine ((handOutcome_only _ _).eq .showList (by decide)).trans ?_
  refine ((sendRecords_only _ _ _ _ _).eq .showList (by decide)).trans ?_
  refine ((Only.foldl _ (markOverlay_only _) _ _).eq .showList (by decide)).trans ?_
  exact (runText_only c r _).eq .showList (by decide)

theorem flipPair_durations (c : Context) {s : State} (h : DurationsHold s.showList) :
    DurationsHold (flipPair c s).showList := by
  unfold flipPair
  split
  · exact flipped_durations _ h
  · exact h

theorem beginOutput_durations (c : Context) (r : Bool) {s : State} (h : DurationsHold s.showList) :
    DurationsHold (beginOutput c r s).showList := by
  have due : ∀ (slot : Nat) (u : State), (takeDue c.segment slot u).2.showList = u.showList := fun slot u =>
    (takeDue_only c.segment slot u).eq .showList (by decide)
  have right : ∀ u : State, (takeRight c.segment u).2.showList = u.showList := fun u =>
    (takeRight_only c.segment u).eq .showList (by decide)
  rw [beginOutput_eq]
  obtain ⟨u, hu, he⟩ := carryOutput_showList c r (takeDue c.segment 0 s).1 (takeRight c.segment (takeDue c.segment 0 s).2).1
    (takeDue c.segment 2 (takeRight c.segment (takeDue c.segment 0 s).2).2).1
    (takeDue c.segment 3 (takeDue c.segment 2 (takeRight c.segment (takeDue c.segment 0 s).2).2).2).1
    (takeDue c.segment 3 (takeDue c.segment 2 (takeRight c.segment (takeDue c.segment 0 s).2).2).2).2
  rw [he]
  refine flipPair_durations c ?_
  rw [hu, due, due, right, due]
  exact h

theorem boundaryCarries_durations (c : Context) (a b : Bool) {s : State} (h : DurationsHold s.showList) :
    DurationsHold (boundaryCarries c a b s).showList := by
  have black : (beginBlack c a s).showList = s.showList := (beginBlack_only c a s).eq .showList (by decide)
  unfold boundaryCarries
  split
  · exact beginOutput_durations c b h
  · exact black.symm ▸ h

theorem boundaryGoes_durations (old : State) (f : Bool) {s : State} (h : DurationsHold s.showList) :
    DurationsHold (boundaryGoes old f s).showList := by
  have reported : (boundaryReported old s).showList = s.showList := (boundaryReported_only old s).eq .showList (by decide)
  have paced : ∀ u : State, DurationsHold u.showList → DurationsHold (formPace u).showList := fun _ hu => hu
  have fired : ∀ (c : Context) (a b : Bool) (u : State), DurationsHold u.showList →
      DurationsHold (fireCues c a b u).showList := fun c a b u hu =>
    (show (fireCues c a b u).showList = u.showList from (fireCues_only c a b u).eq .showList (by decide)).symm ▸ hu
  have staged : ∀ (c : Context) (u : State), DurationsHold u.showList →
      DurationsHold (boundaryStaged old f c u).showList := fun c u hu =>
    (show (boundaryStaged old f c u).showList = u.showList from
      (boundaryStaged_only old f c u).eq .showList (by decide)).symm ▸ hu
  have hr : DurationsHold (boundaryReported old s).showList := reported.symm ▸ h
  unfold boundaryGoes
  dsimp only
  split
  · exact paced _ hr
  · exact paced _ (fired _ _ _ _ (boundaryCarries_durations _ _ _ (staged _ _ hr)))

theorem endShowing_showList (c : EndCause) (s : State) : (endShowing c s).showList = s.showList :=
  (endShowing_only c s).eq .showList (by decide)

theorem boundaryEnds_showList (old : State) (c : EndCause) (s : State) :
    (boundaryEnds old c s).showList = s.showList := by
  have h : (endShowing c (positionKept old s)).showList = s.showList := endShowing_showList c _
  refine ((formPace_only _).eq .showList (by decide)).trans ?_
  split
  · exact ((fireEndCues_only _ _ _).eq .showList (by decide)).trans h
  · exact h

/-! ### The boundary and every step -/

theorem unitBoundaryTick_holds {s : State} (h : SequencerHolds s) (hc : s.seq.clockRunning = true) :
    SequencerHolds (unitBoundaryTick s) := by
  have hr := h.runs hc
  let u := s.withSeq { s.seq with tickCount := 0 }
  have hu : u.seq.Runs := ⟨hr.busy, hr.clock, hr.place, Nat.zero_lt_of_lt hr.ticks, hr.pausedFrom⟩
  have hlist : DurationsHold (handleBoundary u).after.showList :=
    ((handleBoundary_only u).eq .showList (by decide)).symm ▸ (show DurationsHold u.showList from h.durations)
  show SequencerHolds (boundaryActs u)
  unfold boundaryActs
  dsimp only
  split
  · obtain ⟨q, hq⟩ := boundaryEnds_stands u ‹_› (handleBoundary u).after
    refine sequencerHolds_of_rests ?_ ((ended_rests q).of_stands hq)
    rw [boundaryEnds_showList]
    exact hlist
  · rename_i he
    exact sequencerHolds_of_runs (boundaryGoes_durations _ _ hlist)
      ((handleBoundary_runs (s := u) h.durations hu rfl he).of_stands (boundaryGoes_stands _ _ _))

theorem cueAccepted_holds {s : State} (l : List Nat) {p : Nat} (hl : DurationsHold s.showList)
    (hp : p < showLength s.showList) (hq : s.seq.pausedFrom ≠ some .idle) : SequencerHolds (cueAccepted l p s) := by
  have hctx : contextFor (bindShow s) p = contextFor s p := rfl
  refine sequencerHolds_of_runs ?_ ?_
  · rw [show (cueAccepted l p s).showList = s.showList from (cueAccepted_only l p s).eq .showList (by decide)]
    exact hl
  · have hseq : (cueAccepted l p s).seq = (s.seq.filled (contextFor s p)).cued := by
      show (enterSegment l p (bindShow s)).seq.cued = _
      rw [enterSegment_seq, hctx]
      rfl
    rw [hseq]
    exact ⟨(fun e => SeqState.noConfusion e), rfl, ⟨_, rfl, rfl, contextFor_duration hl hp⟩, EditRate.ticks_pos _, hq⟩

theorem granted_holds {s t : State} (h : SequencerHolds s) (hg : Granted s t) : SequencerHolds t := by
  have steers : ∀ {u : State}, u.showList = s.showList → s.seq.Steers u.seq → SequencerHolds u :=
    fun hl hq => h.of_stands hl hq.stands
  have lists : ∀ {l : Vector Entry 128}, DurationsHold l → SequencerHolds (s.withShowList l) := fun hl =>
    ⟨hl, h.idle, h.running, h.ticks, h.pausedFrom⟩
  cases hg with
  | unchanged => exact h
  | status => exact h.of_stands rfl rfl
  | clock n k hk => exact h.of_only ((only_withClock s _).trans (lapseCheck_only _)) (by decide) (by decide)
  | key p key i => exact h.of_stands rfl rfl
  | erased i g => exact h.of_stands rfl rfl
  | entry i e he =>
    refine lists fun x hx => ?_
    rcases mem_bankSet hx with rfl | hx
    · unfold storedEntry
      split
      · exact Nat.le_refl 1
      · simp only [Entry.fieldsOk, Bool.and_eq_true, decide_eq_true_eq] at he
        exact he.1.1.1.1.1.1.1.1
    · exact h.durations x hx
  | cleared l hl => exact lists fun e he => (hl e he).ge
  | cues x => exact h.of_stands rfl rfl
  | sound q hr hw => exact h.of_stands rfl rfl
  | lines x => exact h.of_stands rfl rfl
  | input n c => exact steers ((configureInput_only n c s).eq .showList (by decide)) (configureInput_steers n c s)
  | opened l p hr hs =>
    exact cueAccepted_holds l h.durations (selectAt_lt (congrArg Prod.snd hs)) h.pausedFrom
  | go => exact steers ((takeGo_only s).eq .showList (by decide)) (takeGo_steers s)
  | pause => exact steers ((takePause_only s).eq .showList (by decide)) (takePause_steers s)
  | resume => exact steers ((takeResume_only s).eq .showList (by decide)) (takeResume_steers s)
  | stop => exact steers ((takeStop_only s).eq .showList (by decide)) (takeStop_steers s)
  | flags x y z => exact steers rfl rfl
  | limits a b => exact steers rfl (limited_steers a b _)
  | starving a b => exact steers rfl ((limited_steers a b _).trans (starve_steers _))
  | marked n => exact h.of_stands rfl rfl
  | mask m => exact h.of_stands rfl rfl

/-- After the blocks are reset, a management reset releases, closes and forms PACE (R185). -/
theorem managementReset_only (s : State) :
    Only [.licences, .reports, .recorder, .lane] (resetBlocks s) (managementReset s) :=
  (((releaseAll_only (resetBlocks s)).trans (closeShowing_only _ _ _)).trans (formPace_only _)).mono (by decide)

theorem startWarm_only (s : State) : Only [.reports] s (startWarm s) :=
  Only.ite _ (raise_only _ _ _ s) (raise_only _ _ _ s)

/-- After the volatile state is set, a warm start reports, releases, closes and makes the lapse check (R191). -/
theorem warmStart_only (s : State) :
    Only [.licences, .reports, .recorder] (volatileReset ⟨true, true, true⟩ s) (warmStart s) :=
  ((((startWarm_only _).trans (releaseAll_only _)).trans (closeShowing_only _ _ _)).trans (lapseCheck_only _)).mono
    (by decide)

theorem restarted_rests (q : Sequencer) : q.restarted.Rests := ⟨rfl, rfl, rfl, rfl, rfl, nofun⟩

theorem resetBlocks_rests (s : State) : (resetBlocks s).seq.Rests := ⟨rfl, rfl, rfl, rfl, rfl, nofun⟩

theorem acts_holds {s t : State} (h : SequencerHolds s) (ha : Acts s t) : SequencerHolds t := by
  have rest : ∀ {ps : List Part} {u v : State}, u.seq.Rests → DurationsHold u.showList → Only ps u v → Part.seq ∉ ps →
      Part.showList ∉ ps → SequencerHolds v := fun hq hl hv h1 h2 => (sequencerHolds_of_rests hl hq).of_only hv h1 h2
  cases ha with
  | waits => exact h
  | request r a hp hr hg => exact (granted_holds h hg).of_stands rfl rfl
  | managementReset r hp hr =>
    have hlist : DurationsHold (resetBlocks (answered r (accept [] s))).showList := h.durations
    exact rest (resetBlocks_rests _) hlist (managementReset_only _) (by decide) (by decide)
  | cell c => exact h.of_only (receiveCell_only c s) (by decide) (by decide)
  | boundary hp hc => exact unitBoundaryTick_holds h hc
  | tick hc ht =>
    have hr := h.runs hc
    exact sequencerHolds_of_runs h.durations ⟨hr.busy, hr.clock, hr.place, ht, hr.pausedFrom⟩
  | sample => exact h.of_only (sampleTick_only s) (by decide) (by decide)
  | byteTime => exact h.of_stands rfl rfl
  | divider =>
    refine h.of_stands ((dividerTick_only s).eq .showList (by decide)) ?_
    have hp := (pauseStep_steers (s.withClock s.clock.step)).stands
    exact ite_stands _ (ite_stands _ (hp.trans (stands_of_only (boothSecondActs_only _) (by decide))) hp) (.refl _)
  | laneDown => exact h.of_only (takeLaneDown_only s) (by decide) (by decide)
  | millisecond pins =>
    exact h.of_stands ((lineMillisecondTick_only pins s).eq .showList (by decide)) (lineMillisecondTick_stands pins s)
  | spanEnd n => exact h.of_only (takeSpanEnd_only s n) (by decide) (by decide)
  | edge n => exact h.of_stands ((takeEdge_only s n).eq .showList (by decide)) (takeEdge_steers s n).stands
  | take => exact h.of_only (engineTake_only s) (by decide) (by decide)
  | complete => exact h.of_only (engineComplete_only s) (by decide) (by decide)
  | abandon => exact h.of_only (engineAbandon_only s) (by decide) (by decide)
  | sendStart => exact h.of_only (sendNext_only s) (by decide) (by decide)
  | sendEnd => exact h.of_stands rfl rfl
  | coldStart =>
    refine sequencerHolds_of_rests (fun e he => ?_) ⟨rfl, rfl, rfl, rfl, rfl, nofun⟩
    have he' : e = Entry.emptied 0 := by simpa [coldStart, State.reset] using he
    exact he' ▸ Nat.le_refl 1
  | warmStart =>
    exact rest (u := volatileReset ⟨true, true, true⟩ s) (restarted_rests s.seq) h.durations (warmStart_only s)
      (by decide) (by decide)
  | mainLoss => exact sequencerHolds_of_rests h.durations (restarted_rests s.seq)
  | backupLoss => exact h.of_stands rfl rfl

/-- Settles O58, by the acts of a step; the boundary is the steps of R13, each of which leaves the Sequencer running. -/
theorem stepKeepsOffsetBelowDuration : Obligations.step_keeps_offset_below_duration := by
  intro s t h hstep
  obtain ⟨l, ha⟩ := step_acts hstep
  exact acts_holds (h.of_stands (t := s.withPending l) rfl rfl) ha

end Sys2Proof.Machine
end

section
/-! PROOF. What the operations of a boundary feed the Showing Recorder (R160), what they do to the licence table, and O57:
every step keeps the licence counts at or below their figures (R89, R90). -/

namespace Sys2Proof.Machine

/-! ### What the record is fed -/

/-- Every result that is no longer IN_PROGRESS stands in its place (R159). -/
def ResultsStand (l m : List SegResult) : Prop :=
  ∀ (n : Nat) (y : SegResult), l[n]? = some y → y.outcome ≠ .inProgress → m[n]? = some y

theorem ResultsStand.refl (l : List SegResult) : ResultsStand l l := fun _ _ h _ => h

theorem ResultsStand.trans {l m k : List SegResult} (h : ResultsStand l m) (g : ResultsStand m k) : ResultsStand l k :=
  fun n y hy hp => g n y (h n y hy hp) hp

theorem ResultsStand.append (l m : List SegResult) : ResultsStand l (l ++ m) := fun _ _ h _ => by
  rw [List.getElem?_append_left (List.getElem?_eq_some_iff.mp h).1]
  exact h

theorem changeLast_stands (f : SegResult → SegResult) : ∀ l : List SegResult, ResultsStand l (changeLast f l)
  | [] => .refl []
  | [x] => fun n y h hp => by
    cases n with
    | zero =>
      cases h
      exact congrArg some (if_neg hp)
    | succ n => cases h
  | x :: y :: l => fun n z h hp => by
    cases n with
    | zero => exact h
    | succ n => exact changeLast_stands f (y :: l) n z h hp

/-- The Showing Recorder changed in nothing but figures, results and start time of its record: number, status, count, log
and arming stand, and so does every result that is not IN_PROGRESS. -/
def Recorder.Fed (r x : Recorder) : Prop :=
  ResultsStand r.record.results x.record.results ∧ x = { r with record := { r.record with
    startTime := x.record.startTime
    results := x.record.results
    pauses := x.record.pauses
    pausedTime := x.record.pausedTime
    clips := x.record.clips
    cuesDropped := x.record.cuesDropped
    badCues := x.record.badCues
    missing := x.record.missing
    lastPrincipal := x.record.lastPrincipal } }

theorem Recorder.Fed.refl (r : Recorder) : r.Fed r := ⟨.refl _, rfl⟩

theorem Recorder.Fed.trans {r x y : Recorder} (h : r.Fed x) (k : x.Fed y) : r.Fed y := by
  unfold Recorder.Fed at *
  exact ⟨h.1.trans k.1, by rw [k.2, h.2]⟩

/-- A walk of the state that only feeds the record. -/
def Feeds (s t : State) : Prop := s.recorder.Fed t.recorder

theorem Feeds.refl (s : State) : Feeds s s := Recorder.Fed.refl _

theorem Feeds.trans {s t u : State} (h : Feeds s t) (k : Feeds t u) : Feeds s u := Recorder.Fed.trans h k

theorem Feeds.of_only {ps : List Part} {s t : State} (h : Only ps s t) (hp : Part.recorder ∉ ps) : Feeds s t :=
  (show t.recorder = s.recorder from h.eq .recorder hp).symm.subst (motive := fun r => s.recorder.Fed r)
    (Recorder.Fed.refl _)

theorem Feeds.ite {s t u : State} (c : Prop) [Decidable c] (h : Feeds s t) (k : Feeds s u) :
    Feeds s (if c then t else u) := by
  split
  · exact h
  · exact k

theorem Feeds.foldl {α : Type} (f : State → α → State) (h : ∀ s a, Feeds s (f s a)) :
    ∀ (l : List α) (s : State), Feeds s (l.foldl f s)
  | [], s => .refl s
  | a :: l, s => (h s a).trans (Feeds.foldl f h l (f s a))

theorem Feeds.number {s t : State} (h : Feeds s t) : t.recorder.record.number = s.recorder.record.number := by
  unfold Feeds Recorder.Fed at h
  rw [h.2]

theorem Feeds.status {s t : State} (h : Feeds s t) : t.recorder.status = s.recorder.status := by
  unfold Feeds Recorder.Fed at h
  rw [h.2]

theorem Feeds.results {s t : State} (h : Feeds s t) : ResultsStand s.recorder.record.results t.recorder.record.results :=
  h.1

/-- A change of the OPEN record's figures. -/
theorem feedRecord_feeds {f : ShowRecord → ShowRecord} {s : State}
    (hr : ResultsStand s.recorder.record.results (f s.recorder.record).results)
    (h : { s.recorder with record := f s.recorder.record } = { s.recorder with record := { s.recorder.record with
      startTime := (f s.recorder.record).startTime
      results := (f s.recorder.record).results
      pauses := (f s.recorder.record).pauses
      pausedTime := (f s.recorder.record).pausedTime
      clips := (f s.recorder.record).clips
      cuesDropped := (f s.recorder.record).cuesDropped
      badCues := (f s.recorder.record).badCues
      missing := (f s.recorder.record).missing
      lastPrincipal := (f s.recorder.record).lastPrincipal } }) : Feeds s (feedRecord f s) := by
  show s.recorder.Fed (s.recorder.feed f)
  unfold Recorder.feed
  split
  · exact ⟨hr, h⟩
  · exact .refl _

theorem feedResult_feeds (f : SegResult → SegResult) (s : State) : Feeds s (feedResult f s) :=
  feedRecord_feeds (by exact changeLast_stands f _) (by rfl)
theorem countCueDropped_feeds (s : State) : Feeds s (countCueDropped s) := feedRecord_feeds (by exact .refl _) (by rfl)
theorem countBadCues_feeds (n : Nat) (s : State) : Feeds s (countBadCues n s) := feedRecord_feeds (by exact .refl _) (by rfl)
theorem countMissing_feeds (s : State) : Feeds s (countMissing s) := feedRecord_feeds (by exact .refl _) (by rfl)
theorem countClip_feeds (s : State) : Feeds s (countClip s) := feedRecord_feeds (by exact .refl _) (by rfl)
theorem countPause_feeds (s : State) : Feeds s (countPause s) := feedRecord_feeds (by exact .refl _) (by rfl)
theorem countPausedTime_feeds (n : Nat) (s : State) : Feeds s (countPausedTime n s) :=
  feedRecord_feeds (by exact .refl _) (by rfl)
theorem recordSelection_feeds (l : List Nat) (c : Context) (s : State) : Feeds s (recordSelection l c s) :=
  feedRecord_feeds (by exact (ResultsStand.append _ _).trans (.append _ _)) (by rfl)
theorem recordSkipped_feeds (l : List Nat) (s : State) : Feeds s (recordSkipped l s) :=
  feedRecord_feeds (by exact .append _ _) (by rfl)

theorem recordStart_feeds (s : State) : Feeds s (recordStart s) := by
  refine feedRecord_feeds ?_ ?_
  · split <;> exact .refl _
  · split <;> rfl

theorem handClip_feeds (d : Int) (s : State) (i : Nat) : Feeds s (handClip d s i) :=
  Feeds.ite _ (Feeds.ite _ (countClip_feeds s) (countClip_feeds s)) (.refl s)

theorem sampleTick_feeds (s : State) : Feeds s (sampleTick s) := by
  have silent : ∀ (u : State) (x : SoundEngine), Feeds u (u.withSound x) := fun u _ => .refl u
  exact (Feeds.foldl _ (fun s i => handClip_feeds _ s i) _ s).trans (silent _ _)

/-! ### Text and captions -/

theorem markShown_feeds (d : Displayed) (s : State) : Feeds s (markShown d s).2 :=
  Feeds.ite _ (.refl s) (feedResult_feeds _ s)

theorem queueShow_feeds (d : Displayed) (s : State) : Feeds s (queueShow d s).2 := by
  unfold queueShow
  dsimp only
  split
  · exact Feeds.trans (t := pushCaption _ s) (.refl s) (markShown_feeds d _)
  · split
    · exact Feeds.trans (t := raise _ _ _ (pushCaption _ s)) (.refl s) (markShown_feeds d _)
    · exact countCueDropped_feeds s

theorem clearIfShowing_feeds (s : State) (d : Displayed) : Feeds s (clearIfShowing s d) :=
  Feeds.ite _ (.refl s) (Feeds.ite _ (.refl s) (countCueDropped_feeds s))

theorem withdrawCaptions_feeds (s : State) : Feeds s (withdrawCaptions s) :=
  (Feeds.foldl _ clearIfShowing_feeds _ s).trans (.of_only (setCaptions_only _ _) (by decide))

theorem reshowCaptions_feeds : ∀ (l : List Displayed) (s : State), Feeds s (reshowCaptions l s).2
  | [], s => .refl s
  | d :: l, s => by
    unfold reshowCaptions
    dsimp only
    split
    · exact (queueShow_feeds _ s).trans (reshowCaptions_feeds l _)
    · exact reshowCaptions_feeds l s

theorem admitT0_feeds (s : State) (c : Cue) : Feeds s (admitT0 s c) := by
  unfold admitT0
  split
  · exact Feeds.ite _ (.refl s) (Feeds.trans (t := s.withText _) (.refl s) (countMissing_feeds _))
  · exact countCueDropped_feeds s

theorem admitT1_feeds (w : Bool) (s : State) (c : Cue) : Feeds s (admitT1 w s c) := by
  unfold admitT1
  dsimp only
  split
  · exact .refl s
  · exact (queueShow_feeds _ s).trans (.of_only (setCaptions_only _ _) (by decide))

theorem runT0_feeds (last u : Nat) (s : State) : Feeds s (runT0 last u s) :=
  (Feeds.of_only (only_withText s _) (by decide)).trans (Feeds.foldl _ admitT0_feeds _ _)

theorem runT1_feeds (last u : Nat) (resumed : Bool) (s : State) : Feeds s (runT1 last u resumed s) := by
  have tail : ∀ (l : List Displayed) (cs : List Cue) (x : TextEngine) (v : State),
      Feeds v (cs.foldl (admitT1 false) ((setCaptions l v).withText x)) := fun l cs x v =>
    Feeds.trans (t := (setCaptions l v).withText x) (.refl v) (Feeds.foldl _ (admitT1_feeds false) _ _)
  have lead := Feeds.foldl _ clearIfShowing_feeds (s.text.captions.filter (fun d => decide (d.cue.outPoint ≤ u))) s
  unfold runT1
  dsimp only
  split
  · exact (lead.trans (reshowCaptions_feeds _ _)).trans (tail _ _ _ _)
  · exact lead.trans (tail _ _ _ _)

theorem markOverlay_feeds (u : Nat) (s : State) (i : Nat) : Feeds s (markOverlay u s i) := by
  unfold markOverlay
  split
  · exact Feeds.ite _ (.refl s) (Feeds.trans (t := s.withText _) (.refl s) (feedResult_feeds _ _))
  · exact .refl s

theorem loadList_feeds (g : Segment) (slot : Nat) (s : State) : Feeds s (loadList g slot s) := by
  unfold loadList
  split
  · split
    · exact Feeds.trans (t := setTable _ _ s) (.refl s) (countBadCues_feeds _ _)
    · exact .refl s
  · exact .refl s

theorem runText_feeds (c : Context) (r : Bool) (s : State) : Feeds s (runText c r s) :=
  ((Feeds.ite _ ((loadList_feeds _ _ s).trans (loadList_feeds _ _ _)) (.refl s)).trans (runT0_feeds _ _ _)).trans
    (runT1_feeds _ _ _ _)

theorem lateLoad_feeds (slot c : Nat) (r : Resource) (s : State) : Feeds s (lateLoad slot c r s) := by
  have load : ∀ (x : CueTable) (n : Nat), Feeds s (countBadCues n (setTable slot x s)) := fun x n =>
    Feeds.trans (t := setTable slot x s) (.refl s) (countBadCues_feeds n _)
  unfold lateLoad
  dsimp only
  refine Feeds.trans ?_ (.of_only (raise_only _ _ _ _) (by decide))
  split
  · exact (load _ _).trans (Feeds.foldl _ admitT0_feeds _ _)
  · exact (load _ _).trans (Feeds.foldl _ (admitT1_feeds _) _ _)

theorem engineComplete_feeds (s : State) : Feeds s (engineComplete s) := by
  have list : ∀ (r : Resource) (u : State), Feeds u (listReady r u) := by
    intro r u
    unfold listReady
    split
    · exact Feeds.ite _ (lateLoad_feeds _ _ r u) (.refl u)
    · exact .refl u
  have ready : ∀ (seg slot id : Nat) (u : State), Feeds u (resourceReady seg slot id u) := by
    intro seg slot id u
    unfold resourceReady
    split
    · exact Feeds.ite _ (list _ u) (.refl u)
    · exact .refl u
  unfold engineComplete
  split
  · exact .refl s
  · split
    · exact .refl s
    · split
      · exact .refl s
      · rename_i j _ _ _ len content _
        have h : Feeds s ((changeUnit j.slot j.seg j.unit (finishUnit j (unpack j len content))
            (finishResource j (unpack j len content)) s).withEngine none) :=
          .of_only ((changeUnit_only _ _ _ _ _ s).trans (only_withEngine _ none)) (by decide)
        exact Feeds.ite _ h (h.trans (ready _ _ _ _))

theorem clearDisplays_feeds (s : State) : Feeds s (clearDisplays s) :=
  (Feeds.foldl _ clearIfShowing_feeds _ s).trans (.of_only (only_withText _ _) (by decide))

theorem textSegmentEnd_feeds (i : Nat) (s : State) : Feeds s (textSegmentEnd i s) :=
  (Feeds.of_only (freeResources_only _ s) (by decide)).trans (clearDisplays_feeds _)

theorem textShowingEnd_feeds (s : State) : Feeds s (textShowingEnd s) :=
  (Feeds.of_only (freeResources_only _ s) (by decide)).trans (clearDisplays_feeds _)

/-! ### The Sequencer's steps -/

theorem enterSegment_feeds (l : List Nat) (p : Nat) (s : State) : Feeds s (enterSegment l p s) := by
  have rest : ∀ u : State, Feeds u
      (let v := textSelection (contextFor s p) ((l ++ (contextFor s p).other.toList).foldl discardEntry
        (raise .segmentStart (contextFor s p).played (contextFor s p).principal
          (u.withSeq (u.seq.filled (contextFor s p)))))
      v.withSound { v.sound with clipReported := false }) := fun u =>
    .of_only ((((only_withSeq u _).trans (raise_only _ _ _ _)).trans
      (Only.foldl discardEntry discardEntry_only _ _)).trans ((textSelection_only _ _).trans (only_withSound _ _)))
      (by decide)
  exact (recordSelection_feeds l _ s).trans (rest _)

theorem boundaryUnit_feeds (s : State) : Feeds s (boundaryUnit s) := by
  have timed : Feeds s (s.withSeq s.seq.timed) := .refl s
  exact Feeds.ite _ ((timed.trans (feedResult_feeds _ _)).trans
    ((Feeds.of_only (raise_only _ _ _ _) (by decide)).trans (textSegmentEnd_feeds _ _))) (.refl s)

theorem boundarySelect_feeds {c : Context} {s t : State} (h : boundarySelect c s = some t) : Feeds s t := by
  unfold boundarySelect at h
  dsimp only at h
  split at h
  · cases h
    exact (enterSegment_feeds _ _ s).trans (.of_only (only_withSeq _ _) (by decide))
  · cases h

theorem boundarySkips_feeds (c : Context) (s : State) : Feeds s (boundarySkips c s) :=
  (recordSkipped_feeds _ s).trans (.of_only (Only.foldl discardEntry discardEntry_only _ _) (by decide))

theorem boundaryPause_feeds (s : State) : Feeds s (boundaryPause s) := by
  unfold boundaryPause
  split
  · exact Feeds.ite _ (Feeds.trans (t := s.withSeq _) (.refl s) (countPause_feeds _)) (.refl s)
  · exact .refl s

theorem boundaryResume_feeds (s : State) : Feeds s (boundaryResume s) :=
  Feeds.ite _ ((countPausedTime_feeds _ s).trans (.of_only (only_withSeq _ _) (by decide))) (.refl s)

theorem boundaryGo_feeds (s : State) : Feeds s (boundaryGo s) := by
  unfold boundaryGo
  split
  · exact Feeds.ite _ (Feeds.ite _ (Feeds.trans (t := s.withSeq _) (.refl s) (recordStart_feeds _)) (.refl s)) (.refl s)
  · exact .refl s

theorem boundaryControls_feeds (s : State) : Feeds s (boundaryControls s) :=
  ((boundaryPause_feeds s).trans (boundaryResume_feeds _)).trans (boundaryGo_feeds _)

theorem handleBoundary_feeds (s : State) : Feeds s (handleBoundary s).after := by
  have h := boundaryUnit_feeds s
  unfold handleBoundary
  dsimp only
  split
  · exact h
  · split
    · exact h
    · split
      · split
        · rename_i t e
          exact h.trans ((boundarySelect_feeds e).trans (boundaryControls_feeds _))
        · exact h.trans (boundarySkips_feeds _ _)
      · exact h.trans (boundaryControls_feeds _)

theorem beginBlack_feeds (c : Context) (b : Bool) (s : State) : Feeds s (beginBlack c b s) := by
  have h : Feeds s (sendBlack c.segment (s.withSound (s.sound.beginUnit false false))) := .refl s
  exact Feeds.ite _ (h.trans (withdrawCaptions_feeds _)) h

/-! ### The licence table -/

/-- Every entry's count holds for a showing number, and an EMPTY entry reads as R79 gives. -/
structure TableHolds (n : Nat) (lic : Vector Licence 64) : Prop where
  counts : ∀ x ∈ lic.toList, CountsHold n x
  empties : ∀ x ∈ lic.toList, x.state = .empty → x = Licence.emptied x.generation

/-- No entry is BOUND. -/
def Unbound (lic : Vector Licence 64) : Prop := ∀ x ∈ lic.toList, x.state ≠ .bound

theorem TableHolds.set {n i : Nat} {lic : Vector Licence 64} {x : Licence} (h : TableHolds n lic) (hc : CountsHold n x)
    (he : x.state = .empty → x = Licence.emptied x.generation) : TableHolds n (bankSet lic i x) :=
  ⟨fun y hy => (mem_bankSet hy).elim (fun e => e ▸ hc) (h.counts y),
    fun y hy => (mem_bankSet hy).elim (fun e => e ▸ he) (h.empties y)⟩

theorem Unbound.set {i : Nat} {lic : Vector Licence 64} {x : Licence} (h : Unbound lic) (hx : x.state ≠ .bound) :
    Unbound (bankSet lic i x) := fun y hy => (mem_bankSet hy).elim (fun e => e ▸ hx) (h y)

/-- An entry whose state becomes one that is neither BOUND nor EMPTY. -/
theorem TableHolds.set_changed {n i : Nat} {lic : Vector Licence 64} {st : LicState} (h : TableHolds n lic) (hi : i < 64)
    (hb : st ≠ .bound) (he : st ≠ .empty) : TableHolds n (bankSet lic i ((bankGet lic i).changed st)) :=
  h.set (fun hp => ⟨(h.counts _ (bankGet_mem lic i hi) hp).1, fun e => absurd e hb⟩) fun e => absurd e he

theorem CountsHold.of_unbound {n m : Nat} {x : Licence} (h : CountsHold n x) (hx : x.state ≠ .bound) :
    CountsHold m x := fun hp => ⟨(h hp).1, fun e => absurd e hx⟩

theorem TableHolds.of_unbound {n m : Nat} {lic : Vector Licence 64} (h : TableHolds n lic) (hu : Unbound lic) :
    TableHolds m lic := ⟨fun x hx => (h.counts x hx).of_unbound (hu x hx), h.empties⟩

theorem releasedState_cases (now : Nat) (x : Licence) :
    releasedState now x ≠ .bound ∧ releasedState now x ≠ .empty := by
  unfold releasedState
  split
  · exact ⟨nofun, nofun⟩
  · split <;> exact ⟨nofun, nofun⟩

theorem releaseAll_table {n : Nat} {s : State} (h : TableHolds n s.licences) :
    TableHolds n (releaseAll s).licences :=
  walk_induct (f := releaseSlot) (fun _ t => TableHolds n t.licences) h 64 fun k t hk ht => by
    obtain ⟨hb, he⟩ := releasedState_cases t.clock.seconds (bankGet t.licences k)
    unfold releaseSlot
    dsimp only
    split
    · rw [raiseIf_licences]
      exact ht.set_changed hk hb he
    · exact ht

theorem lapseCheck_table {n : Nat} {s : State} (h : TableHolds n s.licences) :
    TableHolds n (lapseCheck s).licences := by
  unfold lapseCheck
  split
  · refine walk_induct (f := lapseSlot) (fun _ t => TableHolds n t.licences) h 64 fun k t hk ht => ?_
    unfold lapseSlot
    dsimp only
    split
    · exact ht.set_changed hk nofun nofun
    · exact ht
  · exact h

theorem lapseCheck_unbound {s : State} (h : Unbound s.licences) : Unbound (lapseCheck s).licences := by
  unfold lapseCheck
  split
  · refine walk_induct (f := lapseSlot) (fun _ t => Unbound t.licences) h 64 fun k t hk ht => ?_
    unfold lapseSlot
    dsimp only
    split
    · exact ht.set nofun
    · exact ht
  · exact h

/-- The count raises the figure of a BOUND entry not yet counted for the showing, which had room (R90, R163). -/
theorem countedIn_holds {n : Nat} {x : Licence} {comp : Id128} (h : CountsHold n x) (hc : countable comp n x = true) :
    CountsHold n (x.countedIn n) := by
  intro hp
  simp only [countable, Bool.and_eq_true, beq_iff_eq, bne_iff_ne, ne_eq] at hc
  obtain ⟨⟨hb, -⟩, hn⟩ := hc
  have hlt : x.counted < x.permitted := ((h hp).2 hb).resolve_right hn
  exact ⟨(Nat.min_le_right _ _).trans hlt, fun _ => .inr rfl⟩

theorem countShowing_table {c : Context} {s : State} (h : TableHolds s.recorder.record.number s.licences) :
    TableHolds s.recorder.record.number (countShowing c s).licences := by
  refine ⟨fun y hy => ?_, fun y hy => ?_⟩
  all_goals
    obtain ⟨x, hx, rfl⟩ := mem_bankMap.mp hy
    split
  · rename_i hc
    exact countedIn_holds (h.counts x hx) hc
  · exact h.counts x hx
  · rename_i hc
    intro he
    simp only [countable, Bool.and_eq_true, beq_iff_eq] at hc
    exact absurd (hc.1.1.symm.trans he) nofun
  · exact h.empties x hx

theorem countShowing_unbound {c : Context} {s : State} (h : Unbound s.licences) :
    Unbound (countShowing c s).licences := fun y hy => by
  obtain ⟨x, hx, rfl⟩ := mem_bankMap.mp hy
  split
  · exact h x hx
  · exact h x hx

theorem countShowing_number (c : Context) (s : State) :
    (countShowing c s).recorder.record.number = s.recorder.record.number := by
  show (s.recorder.feed _).record.number = _
  unfold Recorder.feed
  split <;> rfl

/-- A candidate of a limited licence has room (R88, R90). -/
theorem candidate_room {now : Nat} {e : Segment} {x : Licence} (h : candidate now e x = true) (hp : 0 < x.permitted) :
    x.counted < x.permitted := by
  simp only [candidate, Bool.and_eq_true, Bool.or_eq_true, beq_iff_eq, decide_eq_true_eq] at h
  rcases h.1.2 with h0 | h0 <;> omega

theorem bindAll_table {n m : Nat} {l : Vector Entry 128} {lic : Vector Licence 64} (now : Nat) (h : TableHolds n lic)
    (hu : Unbound lic) : TableHolds m (bindAll l lic now) := by
  refine ⟨fun y hy => ?_, fun y hy => ?_⟩
  all_goals
    obtain ⟨x, hx, rfl⟩ := mem_bankMap.mp hy
    split
  · rename_i hb
    obtain ⟨i, -, hi⟩ := List.any_eq_true.mp hb
    exact fun hp => ⟨(h.counts x hx hp).1, fun _ => .inl (show x.counted < x.permitted from candidate_room hi hp)⟩
  · exact (h.counts x hx).of_unbound (hu x hx)
  · exact nofun
  · exact h.empties x hx

/-! ### A boundary -/

/-- The Sequencer does not fall into IDLE, nor does PAUSED come to have been entered from it. -/
def Sequencer.StaysBusy (q r : Sequencer) : Prop :=
  q.pausedFrom ≠ some .idle → r.pausedFrom ≠ some .idle ∧ (r.state = .idle → q.state = .idle)

theorem Sequencer.StaysBusy.trans {q r x : Sequencer} (h : q.StaysBusy r) (k : r.StaysBusy x) : q.StaysBusy x :=
  fun hq => ⟨(k (h hq).1).1, fun e => (h hq).2 ((k (h hq).1).2 e)⟩

theorem Sequencer.StaysBusy.of_eq {q r : Sequencer} (hp : r.pausedFrom = q.pausedFrom) (hs : r.state = q.state) :
    q.StaysBusy r := fun h => ⟨hp ▸ h, fun e => hs.symm.trans e⟩

theorem Sequencer.Stands.busy {q r : Sequencer} (h : q.Stands r) : q.StaysBusy r :=
  .of_eq (by rw [h]) (by rw [h])

/-- A state that is not IDLE is entered. -/
theorem Sequencer.StaysBusy.of_state {q r : Sequencer} (hp : r.pausedFrom = q.pausedFrom) (hs : r.state ≠ .idle) :
    q.StaysBusy r := fun h => ⟨hp ▸ h, fun e => absurd e hs⟩

theorem timed_busy (q : Sequencer) : q.StaysBusy q.timed := by
  unfold Sequencer.timed
  split <;> exact .of_eq rfl rfl

theorem unitEnded_busy (q : Sequencer) : q.StaysBusy q.unitEnded := by
  unfold Sequencer.unitEnded
  split
  · exact .of_eq rfl rfl
  · split
    · exact .of_state rfl nofun
    · exact .of_eq rfl rfl
  all_goals exact .of_eq rfl rfl

theorem leadOrPlay_busy (c : Context) (q : Sequencer) : q.StaysBusy (q.leadOrPlay c) := by
  unfold Sequencer.leadOrPlay
  split <;> exact .of_state rfl nofun

theorem begun_busy (c : Context) (q : Sequencer) : q.StaysBusy (q.begun c) := by
  unfold Sequencer.begun
  split
  · exact .of_state rfl nofun
  · exact leadOrPlay_busy c q

theorem boundaryPause_busy (s : State) : s.seq.StaysBusy (boundaryPause s).seq := by
  unfold boundaryPause
  split
  · split
    · rename_i hst
      refine fun _ => ⟨fun e => ?_, fun e => SeqState.noConfusion e⟩
      have hidle : s.seq.state = .idle := Option.some.inj e
      rcases hst with h | h <;> exact SeqState.noConfusion (h.symm.trans hidle)
    · exact .of_eq rfl rfl
  · exact .of_eq rfl rfl

theorem boundaryResume_busy (s : State) : s.seq.StaysBusy (boundaryResume s).seq := by
  unfold boundaryResume
  split
  · refine fun h => ⟨nofun, fun e => ?_⟩
    have hget : s.seq.pausedFrom.getD .playing = .idle := e
    cases hp : s.seq.pausedFrom with
    | none => rw [hp] at hget; exact SeqState.noConfusion hget
    | some st => rw [hp] at hget; exact absurd (hp.trans (congrArg some hget)) h
  · exact .of_eq rfl rfl

theorem boundaryGo_busy (s : State) : s.seq.StaysBusy (boundaryGo s).seq := by
  unfold boundaryGo
  split
  · rename_i c _
    have hgo : s.seq.StaysBusy (({ s.seq with ctx := some { c with holdPending := false } } : Sequencer).leadOrPlay
        { c with holdPending := false }) :=
      Sequencer.StaysBusy.trans (r := { s.seq with ctx := some { c with holdPending := false } }) (.of_eq rfl rfl)
        (leadOrPlay_busy _ _)
    split
    · dsimp only
      split
      · exact hgo
      · exact hgo
    · exact .of_eq rfl rfl
  · exact .of_eq rfl rfl

theorem boundaryControls_busy (s : State) : s.seq.StaysBusy (boundaryControls s).seq :=
  ((boundaryPause_busy s).trans (boundaryResume_busy _)).trans (boundaryGo_busy _)

theorem boundaryUnit_busy (s : State) : s.seq.StaysBusy (boundaryUnit s).seq := by
  rw [boundaryUnit_seq]
  split
  · exact timed_busy _
  · exact (timed_busy _).trans (unitEnded_busy _)

theorem handleBoundary_busy (s : State) : s.seq.StaysBusy (handleBoundary s).after.seq := by
  have h := boundaryUnit_busy s
  unfold handleBoundary
  dsimp only
  split
  · exact h
  · split
    · exact h
    · split
      · unfold boundarySelect
        dsimp only
        cases (selectAt (boundaryUnit s).showList (boundaryUnit s).seq.flags (_ + 1)).2 with
        | some p =>
          refine h.trans (Sequencer.StaysBusy.trans ?_ (boundaryControls_busy _))
          refine Sequencer.StaysBusy.trans (r := (enterSegment _ p (boundaryUnit s)).seq) ?_ (begun_busy _ _)
          rw [enterSegment_seq]
          exact .of_eq rfl rfl
        | none =>
          have e := fun c => (boundarySkips_only c (boundaryUnit s)).eq .seq (by decide)
          exact h.trans (.of_eq (congrArg _ (e _)) (congrArg _ (e _)))
      · exact h.trans (boundaryControls_busy _)

/-- The table holds for the record's number, and entries are BOUND in the second state only where some were in the
first. -/
def LicKept (s t : State) : Prop :=
  (TableHolds s.recorder.record.number s.licences → TableHolds t.recorder.record.number t.licences) ∧
    (Unbound s.licences → Unbound t.licences)

theorem LicKept.trans {s t u : State} (h : LicKept s t) (k : LicKept t u) : LicKept s u := ⟨k.1 ∘ h.1, k.2 ∘ h.2⟩

theorem LicKept.of_feeds {s t : State} (hl : t.licences = s.licences) (h : Feeds s t) : LicKept s t := by
  unfold LicKept
  rw [hl, h.number]
  exact ⟨id, id⟩

theorem LicKept.of_only {ps : List Part} {s t : State} (h : Only ps s t) (h1 : Part.licences ∉ ps)
    (h2 : Part.recorder ∉ ps) : LicKept s t := .of_feeds (h.eq .licences h1) (.of_only h h2)

theorem LicKept.refl (s : State) : LicKept s s := ⟨id, id⟩

theorem countAtPoint_licKept (c : Context) (s : State) : LicKept s (countAtPoint c s) := by
  unfold countAtPoint
  split
  · exact ⟨fun h => (countShowing_number c s).symm ▸ countShowing_table h, countShowing_unbound⟩
  · exact .refl s

theorem carryOutput_licKept (c : Context) (r : Bool) (a0 : Taken) (a1 : Option Taken) (a2 a3 : Taken) (s : State) :
    LicKept s (carryOutput c r a0 a1 a2 a3 s) := by
  refine LicKept.trans ?_ (countAtPoint_licKept c _)
  refine LicKept.trans ?_ (.of_only (flipPair_only c _) (by decide) (by decide))
  refine LicKept.trans ?_ (.of_only (handOutcome_only _ _) (by decide) (by decide))
  refine LicKept.trans ?_ (.of_only (sendRecords_only _ _ _ _ _) (by decide) (by decide))
  refine LicKept.trans ?_ (.of_feeds ((Only.foldl _ (markOverlay_only _) _ _).eq .licences (by decide))
    (Feeds.foldl _ (markOverlay_feeds _) _ _))
  refine LicKept.trans ?_ (.of_feeds ((runText_only c r _).eq .licences (by decide)) (runText_feeds c r _))
  have result : ∀ (f : SegResult → SegResult) (u : State), LicKept u (feedResult f u) := fun f u =>
    .of_feeds rfl (feedResult_feeds f u)
  exact ((LicKept.of_only (only_withSound s _) (by decide) (by decide)).trans (result _ _)).trans
    ((result _ _).trans (result _ _))

theorem beginOutput_licKept (c : Context) (r : Bool) (s : State) : LicKept s (beginOutput c r s) := by
  have due : ∀ (slot : Nat) (u : State), LicKept u (takeDue c.segment slot u).2 := fun slot u =>
    .of_only (takeDue_only c.segment slot u) (by decide) (by decide)
  have right : ∀ u : State, LicKept u (takeRight c.segment u).2 := fun u =>
    .of_only (takeRight_only c.segment u) (by decide) (by decide)
  rw [beginOutput_eq]
  exact ((((due 0 s).trans (right _)).trans (due 2 _)).trans (due 3 _)).trans (carryOutput_licKept _ _ _ _ _ _ _)

theorem boundaryGoes_licKept (old : State) (f : Bool) (s : State) : LicKept s (boundaryGoes old f s) := by
  have reported : LicKept s (boundaryReported old s) := .of_only (boundaryReported_only old s) (by decide) (by decide)
  have carries : ∀ (c : Context) (a b : Bool) (u : State), LicKept u (boundaryCarries c a b u) := by
    intro c a b u
    unfold boundaryCarries
    split
    · exact beginOutput_licKept c b u
    · exact .of_feeds ((beginBlack_only c a u).eq .licences (by decide)) (beginBlack_feeds c a u)
  have paced : ∀ u : State, LicKept u (formPace u) := fun u => .of_only (formPace_only u) (by decide) (by decide)
  unfold boundaryGoes
  dsimp only
  split
  · exact reported.trans (paced _)
  · exact ((reported.trans (.of_only (boundaryStaged_only old f _ _) (by decide) (by decide))).trans
      (carries _ _ _ _)).trans ((LicKept.of_only (fireCues_only _ _ _ _) (by decide) (by decide)).trans (paced _))

theorem closeShowing_number (c : EndCause) (n : Nat) (s : State) :
    (closeShowing c n s).recorder.record.number = s.recorder.record.number := by
  by_cases h : s.recorder.status = .opened
  · exact (closeShowing_opened c n s h).2.2.1
  · rw [closeShowing_not_opened c n s h]

theorem closeShowing_licKept (c : EndCause) (n : Nat) (s : State) : LicKept s (closeShowing c n s) := by
  have hl : (closeShowing c n s).licences = s.licences := (closeShowing_only c n s).eq .licences (by decide)
  unfold LicKept
  rw [hl, closeShowing_number]
  exact ⟨id, id⟩

theorem releaseAll_licKept (s : State) : LicKept s (releaseAll s) := by
  have hr : (releaseAll s).recorder = s.recorder := (releaseAll_only s).eq .recorder (by decide)
  refine ⟨fun h => ?_, fun _ => releaseAll_unbound s⟩
  rw [hr]
  exact releaseAll_table h

theorem lapseCheck_licKept (s : State) : LicKept s (lapseCheck s) := by
  have hr : (lapseCheck s).recorder = s.recorder := (lapseCheck_only s).eq .recorder (by decide)
  refine ⟨fun h => ?_, lapseCheck_unbound⟩
  rw [hr]
  exact lapseCheck_table h

/-- The table holds after every entry has been released, and none is BOUND. -/
theorem LicKept.released {s t : State} (h : LicKept (releaseAll s) t)
    (hs : TableHolds s.recorder.record.number s.licences) :
    TableHolds t.recorder.record.number t.licences ∧ Unbound t.licences :=
  ⟨((releaseAll_licKept s).trans h).1 hs, h.2 (releaseAll_unbound s)⟩

theorem endShowing_released (c : EndCause) (s : State) : LicKept (releaseAll s) (endShowing c s) := by
  have tail : ∀ (u : State) (n : Nat),
      let v := closeShowing c n (raise .showState SeqState.idle.code c.code (u.withSeq u.seq.ended))
      LicKept u ((v.withSound v.sound.endShowing).withPicture v.picture.emptied) := fun u n =>
    ((LicKept.of_only ((only_withSeq u _).trans (raise_only _ _ _ _)) (by decide) (by decide)).trans
      (closeShowing_licKept _ _ _)).trans
        (.of_only ((only_withSound _ _).trans (only_withPicture _ _)) (by decide) (by decide))
  have text : ∀ u : State, LicKept u (textShowingEnd u) := fun u =>
    .of_feeds ((textShowingEnd_only u).eq .licences (by decide)) (textShowingEnd_feeds u)
  unfold endShowing
  dsimp only
  generalize releaseAll s = u
  exact ((LicKept.of_only (emptyQueues_only u) (by decide) (by decide)).trans (text _)).trans (tail _ _)

theorem boundaryEnds_released (old : State) (c : EndCause) (s : State) :
    LicKept (releaseAll (positionKept old s)) (boundaryEnds old c s) := by
  have h := endShowing_released c (positionKept old s)
  unfold boundaryEnds
  dsimp only
  generalize endShowing c (positionKept old s) = u at h ⊢
  refine LicKept.trans ?_ (.of_only (formPace_only _) (by decide) (by decide))
  split
  · exact h.trans (.of_only (fireEndCues_only _ _ _) (by decide) (by decide))
  · exact h

/-! ### Every step -/

theorem LicencesHold.table {s : State} (h : LicencesHold s) : TableHolds s.recorder.record.number s.licences :=
  ⟨h.counts, h.empties⟩

/-- What keeps the table, the main supply and a busy Sequencer keeps the licences. -/
theorem LicencesHold.of_kept {s t : State} (h : LicencesHold s) (hl : LicKept s t) (hq : s.seq.StaysBusy t.seq)
    (hm : t.supplies.main = true → s.supplies.main = true) : LicencesHold t := by
  obtain ⟨hp, hs⟩ := hq h.pausedFrom
  exact ⟨(hl.1 h.table).counts, (hl.1 h.table).empties, fun m e => hl.2 (h.boundRuns (hm m) (hs e)), hp⟩

theorem LicencesHold.of_only {ps : List Part} {s t : State} (h : LicencesHold s) (k : Only ps s t)
    (h1 : Part.licences ∉ ps) (h2 : Part.recorder ∉ ps) (h3 : Part.seq ∉ ps) (h4 : Part.supplies ∉ ps) :
    LicencesHold t := by
  have hs : t.supplies = s.supplies := k.eq .supplies h4
  exact h.of_kept (.of_only k h1 h2) (stands_of_only k h3).busy fun m => hs ▸ m

/-- A table with no entry BOUND holds whatever the supplies and the Sequencer. -/
theorem licencesHold_of_unbound {s : State} (h : TableHolds s.recorder.record.number s.licences)
    (hu : Unbound s.licences) (hp : s.seq.pausedFrom ≠ some .idle) : LicencesHold s :=
  ⟨h.counts, h.empties, fun _ _ => hu, hp⟩

theorem unitBoundaryTick_licences {s : State} (h : LicencesHold s) : LicencesHold (unitBoundaryTick s) := by
  let u := s.withSeq { s.seq with tickCount := 0 }
  have hu : LicencesHold u := ⟨h.counts, h.empties, h.boundRuns, h.pausedFrom⟩
  have hsup : (unitBoundaryTick s).supplies = s.supplies := (unitBoundaryTick_only s).eq .supplies (by decide)
  have hlic : LicKept u (handleBoundary u).after :=
    .of_feeds ((handleBoundary_only u).eq .licences (by decide)) (handleBoundary_feeds u)
  show LicencesHold (boundaryActs u)
  have hsup' : (boundaryActs u).supplies = u.supplies := hsup
  unfold boundaryActs at hsup' ⊢
  dsimp only at hsup' ⊢
  split
  · rename_i cause _
    obtain ⟨ht, hb⟩ := (boundaryEnds_released u cause (handleBoundary u).after).released (hlic.1 hu.table)
    obtain ⟨q, hq⟩ := boundaryEnds_stands u cause (handleBoundary u).after
    exact licencesHold_of_unbound ht hb ((ended_rests q).of_stands hq).pausedFrom
  · rename_i he
    rw [he] at hsup'
    refine hu.of_kept (hlic.trans (boundaryGoes_licKept _ _ _)) ?_ fun m => hsup' ▸ m
    exact (handleBoundary_busy u).trans (boundaryGoes_stands _ _ _).busy

theorem idle_of_accepted {s : State} (h : cueRefusal s = none) : s.seq.state = .idle := by
  by_contra hne
  rw [cueRefusal, if_pos hne] at h
  cases h

/-- An accepted CUE SHOW binds in a table with no entry BOUND. -/
theorem cueAccepted_licences {s : State} (l : List Nat) (p : Nat) (h : LicencesHold s) (hi : s.seq.state = .idle)
    (hm : s.supplies.main = true) : LicencesHold (cueAccepted l p s) := by
  have hbind : TableHolds (bindShow s).recorder.record.number (bindShow s).licences :=
    bindAll_table _ h.table (h.boundRuns hm hi)
  have tail : ∀ u : State, LicKept u (formPace (raise .showState SeqState.cued.code 0 (sendBlack (contextFor s p).segment
      (((u.withSeq u.seq.cued).withSound ((u.withSeq u.seq.cued).sound.cueShow (contextFor s p).segment)).withPicture
        (u.withSeq u.seq.cued).picture.cueShow)))) := fun u =>
    .of_only (((((only_withSeq u _).trans (only_withSound _ _)).trans (only_withPicture _ _)).trans
      (only_withPicture _ _)).trans ((raise_only _ _ _ _).trans (formPace_only _))) (by decide) (by decide)
  have enter : LicKept (bindShow s) (enterSegment l p (bindShow s)) :=
    .of_feeds ((enterSegment_only l p _).eq .licences (by decide)) (enterSegment_feeds l p _)
  have ht := (enter.trans (tail _)).1 hbind
  have hseq : (cueAccepted l p s).seq = ((bindShow s).seq.filled (contextFor (bindShow s) p)).cued :=
    congrArg Sequencer.cued (enterSegment_seq l p (bindShow s))
  refine ⟨ht.counts, ht.empties, fun _ e => ?_, ?_⟩
  · rw [hseq] at e
    exact SeqState.noConfusion e
  · rw [hseq]
    exact h.pausedFrom

theorem granted_licences {s t : State} (h : LicencesHold s) (hm : s.supplies.main = true) (hg : Granted s t) :
    LicencesHold t := by
  have same : ∀ {u : State}, u.licences = s.licences → u.recorder = s.recorder → u.supplies = s.supplies →
      s.seq.Steers u.seq → LicencesHold u := fun h1 h2 h3 h4 =>
    h.of_kept (.of_feeds h1 (show s.recorder.Fed _ from h2 ▸ .refl _)) h4.stands.busy fun m => h3 ▸ m
  have steers : ∀ {u : State}, Only [.seq] s u → s.seq.Steers u.seq → LicencesHold u := fun ho hq =>
    same (ho.eq .licences (by decide)) (ho.eq .recorder (by decide)) (ho.eq .supplies (by decide)) hq
  cases hg with
  | unchanged => exact h
  | status => exact same rfl rfl rfl rfl
  | clock n k hk =>
    have hc : LicencesHold (s.withClock ⟨true, n, k⟩) := same rfl rfl rfl rfl
    have hq : (lapseCheck (s.withClock ⟨true, n, k⟩)).seq = s.seq := (lapseCheck_only _).eq .seq (by decide)
    exact hc.of_kept (lapseCheck_licKept _) (.of_eq (congrArg _ hq) (congrArg _ hq)) fun _ => hm
  | key p key i =>
    refine h.of_kept ⟨fun ht => ht.set (fun hp => ⟨Nat.zero_le _, nofun⟩) nofun, fun hu => hu.set nofun⟩
      (.of_eq rfl rfl) id
  | erased i g =>
    refine h.of_kept ⟨fun ht => ht.set (fun hp => absurd hp (Nat.lt_irrefl 0)) fun _ => rfl, fun hu => hu.set nofun⟩
      (.of_eq rfl rfl) id
  | entry i e he => exact same rfl rfl rfl rfl
  | cleared l hl => exact same rfl rfl rfl rfl
  | cues x => exact same rfl rfl rfl rfl
  | sound q hr hw => exact same rfl rfl rfl rfl
  | lines x => exact same rfl rfl rfl rfl
  | input n c =>
    have ho := configureInput_only n c s
    exact same (ho.eq .licences (by decide)) (ho.eq .recorder (by decide)) (ho.eq .supplies (by decide))
      (configureInput_steers n c s)
  | opened l p hr hs => exact cueAccepted_licences l p h (idle_of_accepted hr) hm
  | go => exact steers (takeGo_only s) (takeGo_steers s)
  | pause => exact steers (takePause_only s) (takePause_steers s)
  | resume => exact steers (takeResume_only s) (takeResume_steers s)
  | stop => exact steers (takeStop_only s) (takeStop_steers s)
  | flags x y z => exact same rfl rfl rfl rfl
  | limits a b => exact same rfl rfl rfl (limited_steers a b _)
  | starving a b => exact same rfl rfl rfl ((limited_steers a b _).trans (starve_steers _))
  | marked n => exact h.of_kept ⟨id, id⟩ (.of_eq rfl rfl) id
  | mask m => exact same rfl rfl rfl rfl

theorem reset_licences : LicencesHold State.reset := by
  have hx : ∀ x ∈ State.reset.licences.toList, x = Licence.emptied 0 := fun x hx => by
    simpa [State.reset] using hx
  refine licencesHold_of_unbound ⟨fun x m => ?_, fun x m => ?_⟩ (fun x m => ?_) nofun
  · exact hx x m ▸ fun hp => absurd hp (Nat.lt_irrefl 0)
  · exact hx x m ▸ fun _ => rfl
  · exact hx x m ▸ nofun

theorem acts_licences {s t : State} (h : LicencesHold s) (ha : Acts s t) : LicencesHold t := by
  cases ha with
  | waits => exact h
  | request r a hp hr hg =>
    have ht := granted_licences h hp hg
    exact ⟨ht.counts, ht.empties, ht.boundRuns, ht.pausedFrom⟩
  | managementReset r hp hr =>
    have hb : TableHolds (resetBlocks (answered r (accept [] s))).recorder.record.number
        (resetBlocks (answered r (accept [] s))).licences := h.table
    have rests : ∀ u : State, (managementReset u).seq.Rests := fun u =>
      (resetBlocks_rests u).of_stands (stands_of_only (managementReset_only u) (by decide))
    have kept : ∀ u : State, LicKept (releaseAll (resetBlocks u)) (managementReset u) := fun u =>
      (closeShowing_licKept _ _ _).trans (.of_only (formPace_only _) (by decide) (by decide))
    obtain ⟨ht, hu⟩ := (kept _).released hb
    exact licencesHold_of_unbound ht hu (rests _).pausedFrom
  | cell c => exact h.of_only (receiveCell_only c s) (by decide) (by decide) (by decide) (by decide)
  | boundary hp hc => exact unitBoundaryTick_licences h
  | tick hc ht => exact h.of_kept ⟨id, id⟩ (.of_eq rfl rfl) id
  | sample =>
    have ho := sampleTick_only s
    have hs : (sampleTick s).supplies = s.supplies := ho.eq .supplies (by decide)
    exact h.of_kept (.of_feeds (ho.eq .licences (by decide)) (sampleTick_feeds s))
      (stands_of_only ho (by decide)).busy fun m => hs ▸ m
  | byteTime => exact h.of_kept ⟨id, id⟩ (.of_eq rfl rfl) id
  | divider =>
    have hs : (dividerTick s).supplies = s.supplies := (dividerTick_only s).eq .supplies (by decide)
    have hq : s.seq.Stands (dividerTick s).seq :=
      ite_stands _ (ite_stands _ ((pauseStep_steers (s.withClock s.clock.step)).stands.trans
        (stands_of_only (boothSecondActs_only _) (by decide))) (pauseStep_steers _).stands) (.refl _)
    have paused : ∀ u : State, LicKept u (pauseStep u) := fun u => .of_only (pauseStep_only u) (by decide) (by decide)
    have second : ∀ u : State, LicKept u (boothSecondActs u) := fun u => by
      unfold boothSecondActs
      dsimp only
      split
      · exact (lapseCheck_licKept u).trans (.of_only (formPace_only _) (by decide) (by decide))
      · exact lapseCheck_licKept u
    have hl : LicKept (s.withClock s.clock.step) (dividerTick s) := by
      unfold dividerTick
      dsimp only
      split
      · split
        · exact (paused _).trans (second _)
        · exact paused _
      · exact .refl _
    exact h.of_kept (LicKept.trans (t := s.withClock s.clock.step) ⟨id, id⟩ hl) hq.busy fun m => hs ▸ m
  | laneDown => exact h.of_only (takeLaneDown_only s) (by decide) (by decide) (by decide) (by decide)
  | millisecond pins =>
    have ho := lineMillisecondTick_only pins s
    have hs : (lineMillisecondTick pins s).supplies = s.supplies := ho.eq .supplies (by decide)
    exact h.of_kept (.of_only ho (by decide) (by decide)) (lineMillisecondTick_stands pins s).busy fun m => hs ▸ m
  | spanEnd n => exact h.of_only (takeSpanEnd_only s n) (by decide) (by decide) (by decide) (by decide)
  | edge n =>
    have ho := takeEdge_only s n
    have hs : (takeEdge s n).supplies = s.supplies := ho.eq .supplies (by decide)
    exact h.of_kept (.of_only ho (by decide) (by decide)) (takeEdge_steers s n).stands.busy fun m => hs ▸ m
  | take => exact h.of_only (engineTake_only s) (by decide) (by decide) (by decide) (by decide)
  | complete =>
    have ho := engineComplete_only s
    have hs : (engineComplete s).supplies = s.supplies := ho.eq .supplies (by decide)
    exact h.of_kept (.of_feeds (ho.eq .licences (by decide)) (engineComplete_feeds s))
      (stands_of_only ho (by decide)).busy fun m => hs ▸ m
  | abandon => exact h.of_only (engineAbandon_only s) (by decide) (by decide) (by decide) (by decide)
  | sendStart => exact h.of_only (sendNext_only s) (by decide) (by decide) (by decide) (by decide)
  | sendEnd => exact h.of_kept ⟨id, id⟩ (.of_eq rfl rfl) id
  | coldStart =>
    exact ⟨reset_licences.counts, reset_licences.empties, reset_licences.boundRuns, reset_licences.pausedFrom⟩
  | warmStart =>
    have hv : TableHolds (startWarm (volatileReset ⟨true, true, true⟩ s)).recorder.record.number
        (startWarm (volatileReset ⟨true, true, true⟩ s)).licences :=
      (LicKept.of_only (startWarm_only _) (by decide) (by decide)).1 h.table
    have kept : LicKept (releaseAll (startWarm (volatileReset ⟨true, true, true⟩ s))) (warmStart s) :=
      (closeShowing_licKept _ _ _).trans (lapseCheck_licKept _)
    obtain ⟨ht, hu⟩ := kept.released hv
    exact licencesHold_of_unbound ht hu
      ((restarted_rests s.seq).of_stands (stands_of_only (warmStart_only s) (by decide))).pausedFrom
  | mainLoss => exact ⟨h.counts, h.empties, fun m => Bool.noConfusion m, nofun⟩
  | backupLoss => exact h.of_kept ⟨id, id⟩ (.of_eq rfl rfl) id

/-- Settles O57, by the acts of a step: a CUE SHOW binds entries with room, the count takes it, every end releases. -/
theorem stepKeepsLicenceCounts : Obligations.step_keeps_licence_counts := by
  intro s t h hstep
  obtain ⟨l, ha⟩ := step_acts hstep
  exact acts_licences (s := s.withPending l) ⟨h.counts, h.empties, h.boundRuns, h.pausedFrom⟩ ha

end Sys2Proof.Machine
end

section
/-! PROOF. The requests of status, clock, licences, show list, cues, profiles and sound (10.4): each answer function's
branches, and the statements that say them. -/

namespace Sys2Proof.Machine

/-! ### The shape of every request -/

/-- A request at the head of the row's kind and length is replied to with what its block answers. -/
theorem performs_answers {s t : State} {k n : Nat} {r : Request} {rest : List Request} {o : ReplyOutcome} {d : List Byte}
    {f : List Byte → State → Answer} (h : HeadIs s k r rest) (hn : r.params.length = n) (ha : f r.params s = ⟨o, d, t⟩) :
    performs k (sized n f) s = .next (replied r o d t) := by
  rw [performs_head h n hn f, answered_eq, ha]

/-- A request of another length than its kind's is refused BAD_PARAM. -/
theorem performs_missized {s : State} {k n : Nat} {r : Request} {rest : List Request} (f : List Byte → State → Answer)
    (h : HeadIs s k r rest) (hn : r.params.length ≠ n) :
    performs k (sized n f) s = .next (replied r .badParam [] s) := by
  have hk : ofKind k r = true := by simp [ofKind, h.isKind]
  rw [performs, perform_head h _ hk, answered_eq, sized, if_neg hn]
  rfl

/-- LINE ACTION of another length than 2 is refused BAD_PARAM by whichever action's row performs it. -/
theorem performsAction_missized {s : State} {r : Request} {rest : List Request} (a : LineAct) (h : HeadIs s 17 r rest)
    (hn : r.params.length ≠ 2) : performsAction a s = .next (replied r .badParam [] s) := by
  have hk : actionRow a r = true := by simp [actionRow, h.isKind, hn]
  rw [performsAction, perform_head h _ hk, answered_eq, sized, if_neg hn]
  rfl

theorem execReset_missized {s : State} {r : Request} {rest : List Request} (h : HeadIs s 31 r rest)
    (hn : r.params.length ≠ 0) : execReset s = .next (replied r .badParam [] s) := by
  have hr : headRequest (ofKind 31) s = some r := by
    have hroom := h.room
    simp [headRequest, h.queue, powered, h.power, ofKind, h.isKind, hroom]
  have hp : r.params ≠ [] := fun e => hn (by rw [e]; rfl)
  rw [execReset, hr]
  simp only [resetPerformed, if_neg hp, answered_eq]
  rfl

/-- Settles O6, by the rows' one shape: the row of BAD_KIND takes every unknown kind, and `sized` judges the length. -/
theorem kindAndLengthChecked : Obligations.kind_and_length_checked := by
  refine ⟨fun s k r rest h hk => ?_, ?_⟩
  · have hu : (!knownKind r.kind) = true := by
      rw [h.isKind]
      rcases hk with rfl | hk
      · rfl
      · simp [knownKind, Nat.not_le.mpr hk]
    show Host.Outcome.next (perform _ _ s) = _
    rw [perform_head h _ hu, answered_eq]
    rfl
  · unfold fixedLengths
    simp only [List.forall_mem_cons, List.not_mem_nil, false_implies, implies_true, and_true]
    refine ⟨?_, ?_, ?_, ?_, ?_, ?_, ?_, ?_, ?_, ?_, ?_, ?_, ?_, ?_, fun s r rest h hn => performsAction_missized _ h hn,
      fun s r rest h hn => performsAction_missized _ h hn, fun s r rest h hn => performsAction_missized _ h hn,
      fun s r rest h hn => performsAction_missized _ h hn, fun s r rest h hn => performsAction_missized _ h hn,
      ?_, ?_, ?_, ?_, ?_, ?_, ?_, ?_, ?_, ?_, ?_, ?_, ?_, fun s r rest h hn => execReset_missized h hn⟩
    all_goals exact fun s r rest h hn => performs_missized _ h hn

/-! ### Generations -/

/-- A request with its presence byte 0 or the entry's generation passes the generation check (R176). -/
theorem generationMatches_of {p : List Byte} {i g : Nat} (h : byteAt p i = 0 ∨ field p (i + 1) 2 = g) :
    generationMatches (expected p i) g = true := by
  unfold expected
  split
  · rename_i h1
    rcases h with h | h
    · omega
    · simpa [generationMatches] using h
  · rfl

/-- One that carries another generation fails it. -/
theorem generationMatches_other {p : List Byte} {i g : Nat} (h1 : byteAt p i = 1) (h : field p (i + 1) 2 ≠ g) :
    generationMatches (expected p i) g = false := by
  simpa [expected, h1, generationMatches] using h

/-! ### Clock and licences -/

/-- Settles O8, by the two checks of SET CLOCK in their order. -/
theorem setClockSetsOrRefuses : Obligations.set_clock_sets_or_refuses := by
  intro s r rest h hl
  refine ⟨fun hi hb => performs_answers h hl ?_, fun hi => performs_answers h hl ?_,
    fun hi hs hb => performs_answers h hl ?_⟩
  · have hback : clockBackward s.clock (field r.params 0 4) = false := by
      cases hs : s.clock.isSet
      · simp [clockBackward, hs]
      · simpa [clockBackward, hs] using hb hs
    simp [setClock, hi, hback, accept]
  · simp [setClock, hi, refuse]
  · simp [setClock, hi, clockBackward, hs, hb, refuse]

/-- Settles O9, by whether the blob unwraps: the other checks of LOAD KEY pass. -/
theorem loadKeyFillsLowestSlot : Obligations.load_key_fills_lowest_slot := by
  intro s r rest i h hl hok hfind hlow
  show performs 3 (sized 91 loadKey) s = _
  cases hkey : unwrapKey (r.params.drop 43) (idField r.params 0) with
  | none => exact performs_answers h hl (by simp [loadKey, hok, hkey, refuse])
  | some key => exact performs_answers h hl (by simp [loadKey, hok, hkey, hfind, hlow, accept, loadedEntry])

/-- Settles O10, by the checks of ERASE KEY in their order. -/
theorem eraseKeyEmptiesOrRefuses : Obligations.erase_key_empties_or_refuses := by
  intro s r rest h hl i x
  refine ⟨fun hx => performs_answers h hl ?_, fun hi hx hp => performs_answers h hl ?_,
    fun hi hp hx => performs_answers h hl ?_, fun hi he hb hp hg => performs_answers h hl ?_,
    fun hi hp he hb hg => performs_answers h hl ?_⟩
  all_goals unfold eraseKey
  · exact if_pos hx
  · have h1 : ¬ (63 < i ∨ x.state = .empty) := by simp [hx, Nat.not_lt.mpr hi]
    have h2 : upTo r.params 1 1 = false := by simp [upTo, hp]
    simp only [i, x] at h1
    simp [h1, h2, refuse]
  · have h1 : ¬ 63 < byteAt r.params 0 := Nat.not_lt.mpr hi
    have h2 : upTo r.params 1 1 = true := by simp [upTo, hp]
    simp only [i, x] at hx
    simp [h1, h2, hx, refuse]
  · have h1 : ¬ (63 < i ∨ x.state = .empty) := by simp [he, Nat.not_lt.mpr hi]
    have h2 : upTo r.params 1 1 = true := by simp [upTo, hp]
    have h3 := generationMatches_other hp hg
    simp only [i, x] at h1 hb h3
    simp [h1, h2, hb, h3, refuseStale, x, i]
  · have h1 : ¬ (63 < i ∨ x.state = .empty) := by simp [he, Nat.not_lt.mpr hi]
    have h2 : upTo r.params 1 1 = true := by simp [upTo, hp]
    have h3 := generationMatches_of hg
    simp only [i, x] at h1 hb h3
    simp [h1, h2, hb, h3, accept, x, i]

/-! ### Reads -/

/-- With no record READ SHOWING answers the one byte 0. -/
theorem readShowing_eq (p : List Byte) (s : State) : readShowing p s =
    ⟨.ok, if s.recorder.status = .none then [0]
      else be 1 s.recorder.status.code ++ recordBytes (byteAt p 0) s.recorder.record, s⟩ := by
  unfold readShowing
  split
  · rename_i h
    simp [h, accept, RecordStatus.code, be]
  · rfl

/-- Settles O12, read by read. -/
theorem readsAnswerAndChangeNothing : Obligations.reads_answer_and_change_nothing := by
  intro s r rest
  refine ⟨fun h hl => ?_, fun h hl => performs_answers h hl rfl, fun h hl => ?_, fun h hl hk => ?_,
    fun h hl hk => performs_answers h hl (by simp [readLine, hk, refuse]),
    fun h hl => performs_answers h hl (readShowing_eq _ s), fun h hl => ?_⟩
  · split
    · rename_i hi
      exact performs_answers h hl (if_pos hi)
    · rename_i hi
      exact performs_answers h hl (if_neg hi)
  · split
    · rename_i hi
      exact performs_answers h hl (if_pos hi)
    · rename_i hi
      exact performs_answers h hl (if_neg hi)
  · have hk' : ¬ 1 < byteAt r.params 0 := Nat.not_lt.mpr hk
    split
    · rename_i hn
      exact performs_answers h hl (by simp [readLine, hk', hn, refuseIndex])
    · rename_i hn
      split
      · rename_i h0
        exact performs_answers h hl (by simp [readLine, hn, h0, accept])
      · rename_i h0
        exact performs_answers h hl (by simp [readLine, hk', hn, h0, accept])
  · split
    · rename_i x hx
      exact performs_answers h hl (by simp [readLog, hx, accept])
    · rename_i hx
      exact performs_answers h hl (by simp [readLog, hx, refuseIndex])

/-! ### Show list, cues, profiles -/

/-- An entry is closed to writing where the running show needs it (R24). -/
theorem entryInUse_iff (s : State) (i : Nat) : entryInUse s i = true ↔ ∃ c, s.seq.ctx = some c ∧ s.seq.state ≠ .idle ∧
    (i = c.principal ∨ i = c.played ∨ (bankGet s.showList c.principal).alternate = some i ∨ i < c.principal) := by
  unfold entryInUse
  cases s.seq.ctx with
  | none => simp
  | some c => simp [or_assoc]

/-- Settles O13, by the checks of WRITE ENTRY in their order. -/
theorem writeEntryReplacesOrRefuses : Obligations.write_entry_replaces_or_refuses := by
  intro s r rest h hl i x g e closed hi hp hc hf
  have h1 : ¬ 127 < byteAt r.params 0 := Nat.not_lt.mpr hi
  have h2 : (upTo r.params 1 1 && entryCoded r.params 4 &&
      (readEntryBody r.params 4 (nextGeneration (bankGet s.showList (byteAt r.params 0)).generation)).fieldsOk) = true := by
    simp only [upTo, hp, hc, decide_true, Bool.true_and]
    exact hf
  have open_of : ¬ closed → entryInUse s (byteAt r.params 0) = false := fun hn =>
    Bool.eq_false_iff.mpr fun hu => hn ((entryInUse_iff s _).mp hu)
  refine ⟨fun hn hg => performs_answers h hl ?_, fun hn => performs_answers h hl ?_,
    fun hn hp1 hg => performs_answers h hl ?_⟩
  all_goals unfold writeEntry; simp only [h1, h2, if_false, Bool.true_eq_false]
  · have h3 := generationMatches_of hg
    simp only [x, i] at h3
    simp only [open_of hn, h3, if_false, Bool.true_eq_false, Bool.false_eq_true, accept, storedEntry]
    rfl
  · rw [if_pos ((entryInUse_iff s _).mpr hn)]
    rfl
  · have h3 := generationMatches_other hp1 hg
    simp only [x, i] at h3
    simp only [open_of hn, h3, if_false, if_true, Bool.false_eq_true, refuseStale]
    rfl

/-- Settles O15, by the checks of WRITE CUE in their order. -/
theorem writeCueReplacesCue : Obligations.write_cue_replaces_cue := by
  intro s r rest h hl i g hp hc
  have h1 : (upTo r.params 1 1 && cueCoded r.params 4) = true := by simp [upTo, hp, hc]
  refine ⟨fun hg => performs_answers h hl ?_, fun hp1 hg => performs_answers h hl ?_⟩
  all_goals unfold writeCue; simp only [h1, if_false, Bool.true_eq_false]
  · have h3 := generationMatches_of hg
    simp only [g, i] at h3
    simp only [h3, if_false, Bool.true_eq_false, accept, readCueBody]
    rfl
  · have h3 := generationMatches_other hp1 hg
    simp only [g, i] at h3
    simp only [h3, if_true, refuseStale]
    rfl

/-- Settles O16, by the checks of WRITE PROFILE in their order; the profile stored is the body read. -/
theorem writeProfileStoresAndSelects : Obligations.write_profile_stores_and_selects := by
  intro s r rest h hl i g hi hp hc hg
  refine ⟨readProfileBody r.params 4 g, performs_answers h hl ?_, rfl, rfl, fun k hk => ?_⟩
  · have h1 : ¬ 7 < byteAt r.params 0 := Nat.not_lt.mpr hi
    have h2 : (upTo r.params 1 1 && profileCoded r.params 4) = true := by simp [upTo, hp, hc]
    have h3 := generationMatches_of hg
    simp only [i] at h3
    unfold writeProfile
    simp only [h1, h2, h3, if_false, Bool.true_eq_false, accept, SoundEngine.profileWritten, beq_eq_false_iff_ne]
    rfl
  · exact ⟨bankGet_of 18 _ k hk, bankGet_of 18 _ k hk⟩

/-- Settles O17, setting by setting. -/
theorem soundSettingsStored : Obligations.sound_settings_stored := by
  intro s r rest
  refine ⟨fun h hl h1 h0 hs => ⟨_, ?_, fun k hk => bankGet_of 101 _ k hk⟩, fun h hl => performs_answers h hl rfl,
    fun h hl hm => performs_answers h hl ?_⟩
  · have hk : ofKind 13 r = true := by simp [ofKind, h.isKind]
    have hc : ¬ (r.params.length < 2 ∨ r.params.length ≠ 2 + 2 * byteAt r.params 1 ∨ byteAt r.params 1 = 0 ∨
        100 < byteAt r.params 0 ∨ 101 < byteAt r.params 0 + byteAt r.params 1) := by omega
    show performs 13 writeFaderLaw s = _
    rw [performs, perform_head h _ hk, answered_eq, writeFaderLaw]
    simp only [if_neg hc]
    rfl
  · simp [setMute, upTo, hm, accept, flagAt]

end Sys2Proof.Machine
end

section
/-! PROOF. Bytes of blocks: what stands at a place of an appended block (R175), and with it the fields of READ STATUS,
READ CAPTURE and the header of a return cell (R56, R178, R182). -/

namespace Sys2Proof.Machine

/-! ### Places of an appended block -/

theorem fromBe_append (a b : List Byte) : fromBe (a ++ b) = fromBe a * 256 ^ b.length + fromBe b := by
  have fold : ∀ (l : List Byte) (n : Nat),
      l.foldl (fun x y => x * 256 + y.toNat) n = n * 256 ^ l.length + fromBe l := by
    intro l
    induction l with
    | nil => intro n; simp [fromBe]
    | cons y l ih =>
      intro n
      rw [fromBe, List.foldl_cons, List.foldl_cons, ih, ih (0 * 256 + y.toNat), List.length_cons, pow_succ]
      ring
  rw [fromBe, List.foldl_append, fold b]
  rfl

/-- A number written in w bytes reads back modulo their range. -/
theorem fromBe_be (w n : Nat) : fromBe (be w n) = n % 256 ^ w := by
  induction w with
  | zero => simp [be, fromBe, Nat.mod_one]
  | succ w ih =>
    have hb : fromBe [BitVec.ofNat 8 (n / 256 ^ w)] = n / 256 ^ w % 256 := by simp [fromBe]
    rw [be, ← List.singleton_append, fromBe_append, ih, hb, length_be, pow_succ, Nat.mod_mul]
    ring

@[simp] theorem slice_append_left {a b : List Byte} {i w : Nat} (h : i + w ≤ a.length) :
    ((a ++ b).drop i).take w = (a.drop i).take w := by
  rw [List.drop_append_of_le_length (by omega), List.take_append_of_le_length (by rw [List.length_drop]; omega)]

@[simp] theorem slice_append_right {a b : List Byte} {i w : Nat} (h : a.length ≤ i) :
    ((a ++ b).drop i).take w = (b.drop (i - a.length)).take w := by
  rw [List.drop_append, List.drop_eq_nil_of_le h, List.nil_append]

/-- A field within the first part of a block is that part's. -/
@[simp] theorem field_append_left {a b : List Byte} {i w : Nat} (h : i + w ≤ a.length) : field (a ++ b) i w = field a i w := by
  rw [field, slice_append_left h, field]

/-- A field past the first part of a block is the rest's. -/
@[simp] theorem field_append_right {a b : List Byte} {i w : Nat} (h : a.length ≤ i) :
    field (a ++ b) i w = field b (i - a.length) w := by
  rw [field, slice_append_right h, field]

@[simp] theorem byteAt_append_left {a b : List Byte} {i : Nat} (h : i < a.length) : byteAt (a ++ b) i = byteAt a i := by
  rw [byteAt, List.getD_append _ _ _ _ h, byteAt]

@[simp] theorem byteAt_append_right {a b : List Byte} {i : Nat} (h : a.length ≤ i) :
    byteAt (a ++ b) i = byteAt b (i - a.length) := by
  rw [byteAt, List.getD_append_right _ _ _ _ h, byteAt]

@[simp] theorem maskAt_append_left {a b : List Byte} {i : Nat} (h : i < a.length) : maskAt (a ++ b) i = maskAt a i := by
  rw [maskAt, List.getD_append _ _ _ _ h, maskAt]

@[simp] theorem maskAt_append_right {a b : List Byte} {i : Nat} (h : a.length ≤ i) :
    maskAt (a ++ b) i = maskAt b (i - a.length) := by
  rw [maskAt, List.getD_append_right _ _ _ _ h, maskAt]

@[simp] theorem field_cons_succ (b : Byte) (l : List Byte) (i w : Nat) : field (b :: l) (i + 1) w = field l i w := rfl

@[simp] theorem field_cons_zero (b : Byte) (l : List Byte) : field (b :: l) 0 1 = b.toNat := by simp [field, fromBe]

@[simp] theorem byteAt_cons_succ (b : Byte) (l : List Byte) (i : Nat) : byteAt (b :: l) (i + 1) = byteAt l i := rfl

@[simp] theorem byteAt_cons_zero (b : Byte) (l : List Byte) : byteAt (b :: l) 0 = b.toNat := rfl

@[simp] theorem maskAt_cons_succ (b : Byte) (l : List Byte) (i : Nat) : maskAt (b :: l) (i + 1) = maskAt l i := rfl

@[simp] theorem maskAt_cons_zero (b : Byte) (l : List Byte) : maskAt (b :: l) 0 = b := rfl

@[simp] theorem flagAt_cons_succ (b : Byte) (l : List Byte) (i : Nat) : flagAt (b :: l) (i + 1) = flagAt l i := rfl

/-! ### Single fields -/

theorem field_all {l : List Byte} {w : Nat} (h : l.length = w) : field l 0 w = fromBe l := by
  rw [field, List.drop_zero, List.take_of_length_le (Nat.le_of_eq h)]

@[simp] theorem field_be (w n : Nat) : field (be w n) 0 w = n % 256 ^ w := by rw [field_all (length_be w n), fromBe_be]

@[simp] theorem byteAt_be (n : Nat) : byteAt (be 1 n) 0 = n % 256 := by simp [byteAt, be]

@[simp] theorem length_yesNo (b : Bool) : (yesNo b).length = 1 := by cases b <;> rfl

@[simp] theorem byteAt_yesNo (b : Bool) : byteAt (yesNo b) 0 = if b then 1 else 0 := by cases b <;> rfl

@[simp] theorem field_yesNo (b : Bool) : field (yesNo b) 0 1 = if b then 1 else 0 := by cases b <;> rfl

@[simp] theorem length_timeBytes (t : BoothTime) : (timeBytes t).length = 6 := by simp [timeBytes]

@[simp] theorem length_optTimeBytes (o : Option BoothTime) : (optTimeBytes o).length = 6 := by
  cases o with
  | none => exact length_be 6 0
  | some t => exact length_timeBytes t

@[simp] theorem length_idBytes (x : Id128) : (idBytes x).length = 16 := length_be 16 _

@[simp] theorem flagAt_append_left {a b : List Byte} {i : Nat} (h : i < a.length) : flagAt (a ++ b) i = flagAt a i := by
  rw [flagAt, byteAt_append_left h, flagAt]

@[simp] theorem flagAt_append_right {a b : List Byte} {i : Nat} (h : a.length ≤ i) :
    flagAt (a ++ b) i = flagAt b (i - a.length) := by
  rw [flagAt, byteAt_append_right h, flagAt]

@[simp] theorem flagAt_yesNo (b : Bool) : flagAt (yesNo b) 0 = b := by cases b <;> rfl

@[simp] theorem idField_append_left {a b : List Byte} {i : Nat} (h : i + 16 ≤ a.length) : idField (a ++ b) i = idField a i := by
  rw [idField, field_append_left h, idField]

@[simp] theorem idField_append_right {a b : List Byte} {i : Nat} (h : a.length ≤ i) :
    idField (a ++ b) i = idField b (i - a.length) := by
  rw [idField, field_append_right h, idField]

@[simp] theorem idField_idBytes (x : Id128) : idField (idBytes x) 0 = x := by
  rw [idField, idBytes, field_be]
  apply BitVec.eq_of_toNat_eq
  rw [BitVec.toNat_ofNat]
  have h := x.isLt
  omega

@[simp] theorem SeqState.code_byte (c : SeqState) : c.code % 256 = c.code := by cases c <;> rfl

/-- The three fields of a booth time (R175). -/
theorem timeBytes_fields (t : BoothTime) : field (timeBytes t) 0 4 = t.seconds % 4294967296 ∧
    field (timeBytes t) 4 1 = t.fraction % 256 ∧ field (timeBytes t) 5 1 = if t.isSet then 3 else 2 := by
  unfold timeBytes
  refine ⟨?_, ?_, ?_⟩
  · simp
  · simp
  · cases t.isSet <;> simp

/-! ### READ STATUS -/

@[simp] theorem length_counterBytes (c : LinkCounters) : (counterBytes c).length = 16 := by simp [counterBytes]

theorem counterBytes_fields (c : LinkCounters) : field (counterBytes c) 0 2 = c.headerErrors % 65536 ∧
    field (counterBytes c) 2 2 = c.gaps % 65536 ∧ field (counterBytes c) 4 2 = c.orphans % 65536 ∧
    field (counterBytes c) 6 2 = c.overruns % 65536 ∧ field (counterBytes c) 8 2 = c.truncated % 65536 ∧
    field (counterBytes c) 10 2 = c.overlong % 65536 ∧ field (counterBytes c) 12 2 = c.late % 65536 ∧
    field (counterBytes c) 14 2 = c.refused % 65536 := by
  simp [counterBytes]

/-- The figures of READ STATUS in their places (R178). -/
theorem statusBytes_fields (s : State) : (statusBytes s).length = 44 ∧
    field (statusBytes s) 0 1 = s.seq.state.code ∧
    field (statusBytes s) 1 1 = s.seq.seg % 256 ∧
    field (statusBytes s) 2 3 = s.seq.offset % 16777216 ∧
    field (statusBytes s) 5 4 = showingOrIdle s % 4294967296 ∧
    maskAt (statusBytes s) 9 = s.seq.flags ∧
    field (statusBytes s) 10 4 = (boothNow s).seconds % 4294967296 ∧
    field (statusBytes s) 14 1 = s.clock.fraction % 256 ∧
    field (statusBytes s) 15 1 = (if s.clock.isSet then 3 else 2) ∧
    field (statusBytes s) 16 6 = s.seq.showingTime % 281474976710656 ∧
    flagAt (statusBytes s) 22 = s.link.laneUp ∧
    (∀ k, k < 8 → field (statusBytes s) (23 + 2 * k) 2 = field (counterBytes s.link.counters) (2 * k) 2) ∧
    field (statusBytes s) 39 2 = s.mgmt.lost % 65536 ∧
    field (statusBytes s) 41 2 = 620 ∧ field (statusBytes s) 43 1 = 1 := by
  obtain ⟨hsec, hfrac, hset⟩ := timeBytes_fields (boothNow s)
  have hf : (boothNow s).fraction = s.clock.fraction := rfl
  have hs : (boothNow s).isSet = s.clock.isSet := rfl
  unfold statusBytes
  refine ⟨?_, ?_, ?_, ?_, ?_, ?_, ?_, ?_, ?_, ?_, ?_, fun k hk => ?_, ?_, ?_, ?_⟩
  case refine_12 =>
    have e : 23 + 2 * k - 23 = 2 * k := by omega
    rw [field_append_left (by simp; omega), field_append_left (by simp; omega), field_append_left (by simp; omega),
      field_append_right (by simp)]
    simp [e]
  all_goals simp [hsec, hfrac, hset, hf, hs, Config.partCode, Config.revision]

/-- Settles O7, by the places of its figures. -/
theorem readStatusAnswersAndClears : Obligations.read_status_answers_and_clears := by
  refine ⟨fun s r rest h hp => performs_answers h (by simp [hp]) rfl, fun s => ?_⟩
  obtain ⟨hlen, hstate, hseg, hoff, hshow, hflags, hsec, hfrac, hset, htime, hlane, hc, hlost, hpart, hrev⟩ :=
    statusBytes_fields s
  obtain ⟨c0, c1, c2, c3, c4, c5, c6, c7⟩ := counterBytes_fields s.link.counters
  refine ⟨hlen, hstate, hseg, hoff, ?_, hflags, ?_, hfrac, hset, htime, hlane, (hc 0 (by decide)).trans c0,
    (hc 1 (by decide)).trans c1, (hc 2 (by decide)).trans c2, (hc 3 (by decide)).trans c3, (hc 4 (by decide)).trans c4,
    (hc 5 (by decide)).trans c5, (hc 6 (by decide)).trans c6, (hc 7 (by decide)).trans c7, hlost, hpart, hrev⟩
  · rw [hshow, showingOrIdle]
    split <;> simp
  · rw [hsec, boothNow]
    split <;> simp

/-! ### READ CAPTURE -/

/-- Settles O22, by the places of the capture's fields. -/
theorem readCaptureClearsFlags : Obligations.read_capture_clears_flags := by
  intro s r rest h hl n x
  refine ⟨fun hn => performs_answers h hl (if_neg (Nat.not_lt.mpr hn)), fun hn => performs_answers h hl (if_pos hn),
    fun hc => ?_, fun c hc => ?_⟩
  · rw [captureBytes, hc]
    show be 1 1 ++ be 19 0 = _
    rw [be_zero]
    rfl
  · obtain ⟨hsec, hfrac, hset⟩ := timeBytes_fields c.time
    simp only [captureBytes, hc]
    cases c.rising <;> simp [hsec, hfrac, hset]

/-! ### Return cells -/

theorem length_returnHead (kind seg sequence n : Nat) : (returnHead kind seg sequence n).length = 12 := by
  simp [returnHead, length_be]

/-- A header of 14 bytes is the list it was made of. -/
theorem headerOf_toList {l : List Byte} (h : l.length = 14) : (headerOf l).toList = l := by
  apply List.ext_getElem
  · simp [h]
  · intro i h1 h2
    simp [headerOf, bankOf, h2]

/-- Settles O60, by the places of the header's fields. -/
theorem returnCellHeaderReadsBack : Obligations.return_cell_header_reads_back := by
  intro kind seg sequence p hk hs hq hp c
  have hh : c.header.toList = returnHead kind seg sequence p.length ++
      be 2 (crc16 (returnHead kind seg sequence p.length)).toNat :=
    headerOf_toList (by simp [length_returnHead, length_be])
  have hl := length_returnHead kind seg sequence p.length
  have hcrc := (crc16 (returnHead kind seg sequence p.length)).isLt
  have hmark : c.markByte = 0xC0 := by
    rw [Cell.markByte, hh]
    simp [returnHead]
  refine ⟨?_, ?_, ?_, ?_, ?_, ?_, ?_, ?_, ?_, ?_, rfl⟩
  · rw [Cell.checkOk, Cell.checkField, Cell.headerField, hh, List.take_left' hl]
    simp only [field_append_right, hl, Nat.le_refl, Nat.sub_self, field_be, beq_iff_eq]
    omega
  · simp [Cell.version, Cell.headerField, hh, returnHead]
  · simp [Cell.kind, Cell.headerField, hh, returnHead, Nat.mod_eq_of_lt hk]
  · rw [Cell.unitStart, hmark]
    rfl
  · rw [Cell.unitEnd, hmark]
    rfl
  · rw [Cell.slot, hmark]
    rfl
  · simp [Cell.segment, Cell.headerField, hh, returnHead, Nat.mod_eq_of_lt hs]
  · simp [Cell.seqNumber, Cell.headerField, hh, returnHead, Nat.mod_eq_of_lt hq]
  · simp [Cell.lengthField, Cell.headerField, hh, returnHead, Nat.mod_eq_of_lt (show p.length < 65536 by omega)]
  · simp [Cell.unitNumber, Cell.headerField, hh, returnHead]

end Sys2Proof.Machine
end

section
/-! PROOF. O59: the bodies of 10.4 read back as what they were, and the fields of what the reads answer in their places
(R175, R180 to R183). -/

namespace Sys2Proof.Machine

/-! ### Codes of one byte -/

@[simp] theorem LineMode.code_byte (c : LineMode) : c.code % 256 = c.code := by cases c <;> rfl
@[simp] theorem Activity.code_byte (c : Activity) : c.code % 256 = c.code := by cases c <;> rfl
@[simp] theorem EdgeSetting.code_byte (c : EdgeSetting) : c.code % 256 = c.code := by cases c <;> rfl
@[simp] theorem EndCause.code_byte (c : EndCause) : c.code % 256 = c.code := by cases c <;> rfl
@[simp] theorem SegClass.code_byte (c : SegClass) : c.code % 256 = c.code := by cases c <;> rfl
@[simp] theorem EditRate.code_byte (c : EditRate) : c.code % 256 = c.code := by cases c <;> rfl
@[simp] theorem SampleRate.code_byte (c : SampleRate) : c.code % 256 = c.code := by cases c <;> rfl
@[simp] theorem LineAct.code_byte (c : LineAct) : c.code % 256 = c.code := by cases c <;> rfl
@[simp] theorem LineMode.ofCode_code (c : LineMode) : LineMode.ofCode c.code = c := by cases c <;> rfl
@[simp] theorem EdgeSetting.ofCode_code (c : EdgeSetting) : EdgeSetting.ofCode c.code = c := by cases c <;> rfl
@[simp] theorem SegClass.ofCode_code (c : SegClass) : SegClass.ofCode c.code = c := by cases c <;> rfl
@[simp] theorem EditRate.ofCode_code (c : EditRate) : EditRate.ofCode c.code = c := by cases c <;> rfl
@[simp] theorem SampleRate.ofCode_code (c : SampleRate) : SampleRate.ofCode c.code = c := by cases c <;> rfl
@[simp] theorem LineAct.ofCode_code (c : LineAct) : LineAct.ofCode c.code = c := by cases c <;> rfl
@[simp] theorem LineMode.code_le (c : LineMode) : c.code ≤ 3 := by cases c <;> decide
@[simp] theorem EdgeSetting.code_le (c : EdgeSetting) : c.code ≤ 3 := by cases c <;> decide
@[simp] theorem SegClass.code_le (c : SegClass) : c.code ≤ 6 := by cases c <;> decide
@[simp] theorem EditRate.code_le (c : EditRate) : c.code ≤ 5 := by cases c <;> decide
@[simp] theorem SampleRate.code_le (c : SampleRate) : c.code ≤ 1 := by cases c <;> decide
@[simp] theorem LineAct.code_le (c : LineAct) : c.code ≤ 4 := by cases c <;> decide

@[simp] theorem bit_le_one (b : Bool) : (if b then 1 else 0) ≤ 1 := by cases b <;> decide

/-! ### Conditions, optional indexes and optional count points -/

@[simp] theorem length_conditionBytes (c : Condition) : (conditionBytes c).length = 2 := by cases c <;> rfl

@[simp] theorem readCondition_append_left {a b : List Byte} {i : Nat} (h : i + 2 ≤ a.length) :
    readCondition (a ++ b) i = readCondition a i := by
  rw [readCondition, byteAt_append_left (by omega), byteAt_append_left (by omega), readCondition]

@[simp] theorem readCondition_append_right {a b : List Byte} {i : Nat} (h : a.length ≤ i) :
    readCondition (a ++ b) i = readCondition b (i - a.length) := by
  rw [readCondition, byteAt_append_right h, byteAt_append_right (by omega), readCondition,
    Nat.sub_add_comm h]

@[simp] theorem conditionOk_append_left {a b : List Byte} {i : Nat} (h : i + 2 ≤ a.length) :
    conditionOk (a ++ b) i = conditionOk a i := by
  rw [conditionOk, upTo, upTo, byteAt_append_left (by omega), byteAt_append_left (by omega), conditionOk, upTo, upTo]

@[simp] theorem conditionOk_append_right {a b : List Byte} {i : Nat} (h : a.length ≤ i) :
    conditionOk (a ++ b) i = conditionOk b (i - a.length) := by
  rw [conditionOk, upTo, upTo, byteAt_append_right h, byteAt_append_right (by omega), conditionOk, upTo, upTo,
    Nat.sub_add_comm h]

theorem conditionOk_conditionBytes {c : Condition} (h : c.inRange = true) : conditionOk (conditionBytes c) 0 = true := by
  cases c with
  | always => rfl
  | flag k sense =>
    have hk : k ≤ 7 := by simpa [Condition.inRange] using h
    have hb : k % 256 ≤ 7 := by omega
    cases sense <;> simp [conditionOk, upTo, conditionBytes, byteAt, hb]

theorem readCondition_conditionBytes {c : Condition} (h : c.inRange = true) : readCondition (conditionBytes c) 0 = c := by
  cases c with
  | always => rfl
  | flag k sense =>
    have hk : k ≤ 7 := by simpa [Condition.inRange] using h
    have hb : k % 256 = k := by omega
    cases sense <;> simp [readCondition, conditionBytes, byteAt, hb]

@[simp] theorem length_optIndexByte (o : Option Nat) : (optIndexByte o).length = 1 := length_be 1 _

theorem byteAt_optIndexByte {o : Option Nat} (h : ∀ g, o = some g → g ≤ 127) :
    byteAt (optIndexByte o) 0 = o.getD 255 := by
  rw [optIndexByte, byteAt_be]
  cases o with
  | none => rfl
  | some g => exact Nat.mod_eq_of_lt (by have := h g rfl; simp; omega)

/-- An optional index byte reads back. -/
theorem optIndex_getD {o : Option Nat} (h : ∀ g, o = some g → g ≤ 127) :
    (if o.getD 255 = 255 then none else some (o.getD 255)) = o := by
  cases o with
  | none => rfl
  | some g =>
    have := h g rfl
    exact if_neg (by simp; omega)

/-- An optional count point reads back. -/
theorem optPoint_getD {o : Option Nat} (h : ∀ g, o = some g → g ≤ 16777215) :
    (if o.getD top32 % 4294967296 = top32 then none else some (o.getD top32 % 4294967296)) = o := by
  cases o with
  | none => rfl
  | some g =>
    have := h g rfl
    have e : g % 4294967296 = g := by omega
    simp only [Option.getD_some, e, top32]
    exact if_neg (by omega)

/-! ### The first part of a block -/

@[simp] theorem field_be_append (w n : Nat) (l : List Byte) : field (be w n ++ l) 0 w = n % 256 ^ w := by
  rw [field_append_left (by simp), field_be]

@[simp] theorem byteAt_be_append (n : Nat) (l : List Byte) : byteAt (be 1 n ++ l) 0 = n % 256 := by
  rw [byteAt_append_left (by simp), byteAt_be]

@[simp] theorem flagAt_yesNo_append (b : Bool) (l : List Byte) : flagAt (yesNo b ++ l) 0 = b := by
  rw [flagAt_append_left (by simp), flagAt_yesNo]

@[simp] theorem idField_idBytes_append (x : Id128) (l : List Byte) : idField (idBytes x ++ l) 0 = x := by
  rw [idField_append_left (by simp), idField_idBytes]

/-! ### The entry body -/

theorem length_entryBody (e : Entry) : (entryBody e).length = 47 := by
  unfold entryBody
  simp

/-- An entry whose condition is in its range passes the coding check of an entry body (R175). -/
theorem entryCoded_entryBody {e : Entry} (h : e.cond.inRange = true) : entryCoded (entryBody e) 0 = true := by
  unfold entryBody
  simp [entryCoded, upTo, conditionOk_conditionBytes h]

/-- An entry in its ranges reads back (R180). -/
theorem readEntryBody_entryBody {e : Entry} (h : e.inRange = true) : readEntryBody (entryBody e) 0 e.generation = e := by
  simp only [Entry.inRange, Entry.fieldsOk, Bool.and_eq_true, decide_eq_true_eq] at h
  obtain ⟨⟨⟨⟨⟨⟨⟨hreel, hentry⟩, hdur⟩, hin⟩, hout⟩, hfirst⟩, hcond⟩,
    ⟨⟨⟨⟨⟨⟨⟨-, halt⟩, hlead⟩, hprof⟩, hcount⟩, -⟩, -⟩, hpoint⟩, -⟩ := h
  have halt' : ∀ g, e.alternate = some g → g ≤ 127 := fun g hg => by simpa [hg] using halt
  have hpoint' : ∀ g, e.countPoint = some g → g ≤ 16777215 := fun g hg => by simpa [hg] using hpoint
  have r1 : e.reel % 256 = e.reel := by omega
  have r2 : e.entryPoint % 16777216 = e.entryPoint := by omega
  have r3 : e.duration % 16777216 = e.duration := by omega
  have r4 : e.leadGap % 65536 = e.leadGap := by omega
  have r5 : e.fadeIn % 256 = e.fadeIn := by omega
  have r6 : e.fadeOut % 256 = e.fadeOut := by omega
  have r7 : e.profile % 256 = e.profile := by omega
  have r8 : e.cueFirst % 256 = e.cueFirst := by omega
  have r9 : e.cueCount % 256 = e.cueCount := by omega
  have halt'' : ∀ l, byteAt (optIndexByte e.alternate ++ l) 0 = e.alternate.getD 255 := fun l => by
    rw [byteAt_append_left (by simp), byteAt_optIndexByte halt']
  unfold entryBody
  simp [readEntryBody, optIndex, optPoint, readCondition_conditionBytes hcond, halt'', optIndex_getD halt',
    optPoint_getD hpoint', r1, r2, r3, r4, r5, r6, r7, r8, r9]

/-! ### The cue body -/

@[simp] theorem length_anchorBytes (a : Anchor) : (anchorBytes a).length = 4 := by cases a <;> simp [anchorBytes]

@[simp] theorem length_cueActionBytes (a : CueAction) : (cueActionBytes a).length = 4 := by
  cases a <;> simp [cueActionBytes]

@[simp] theorem readAnchor_append {a b : List Byte} (h : a.length = 4) : readAnchor (a ++ b) 0 = readAnchor a 0 := by
  rw [readAnchor, byteAt_append_left (by omega), field_append_left (by omega), readAnchor]

@[simp] theorem anchorOk_append {a b : List Byte} (h : a.length = 4) : anchorOk (a ++ b) 0 = anchorOk a 0 := by
  rw [anchorOk, upTo, byteAt_append_left (by omega), field_append_left (by omega), anchorOk, upTo]

@[simp] theorem readCueAction_append {a b : List Byte} {i : Nat} (h : a.length ≤ i) :
    readCueAction (a ++ b) i = readCueAction b (i - a.length) := by
  rw [readCueAction, byteAt_append_right h, byteAt_append_right (by omega), byteAt_append_right (by omega),
    maskAt_append_right (by omega), maskAt_append_right (by omega), maskAt_append_right (by omega),
    field_append_right (by omega), readCueAction, Nat.sub_add_comm h, Nat.sub_add_comm h, Nat.sub_add_comm h]

@[simp] theorem cueActionOk_append {a b : List Byte} {i : Nat} (h : a.length ≤ i) :
    cueActionOk (a ++ b) i = cueActionOk b (i - a.length) := by
  rw [cueActionOk, upTo, upTo, upTo, byteAt_append_right h, byteAt_append_right (by omega),
    byteAt_append_right (by omega), cueActionOk, upTo, upTo, upTo, Nat.sub_add_comm h, Nat.sub_add_comm h]

/-- A cue in its ranges passes its coding check and reads back (R180). -/
theorem cueBody_readsBack {c : AutoCue} (h : c.inRange = true) : (cueBody c).length = 10 ∧
    cueCoded (cueBody c) 0 = true ∧ readCueBody (cueBody c) 0 c.generation = c := by
  obtain ⟨anchor, cond, action, generation⟩ := c
  simp only [AutoCue.inRange, Bool.and_eq_true] at h
  obtain ⟨⟨hcond, hanchor⟩, haction⟩ := h
  have ha : anchorOk (anchorBytes anchor) 0 = true ∧ readAnchor (anchorBytes anchor) 0 = anchor := by
    cases anchor with
    | start e =>
      have he : e ≤ 16777214 := by simpa using hanchor
      have hm : e % 16777216 = e := by omega
      simp [anchorOk, upTo, readAnchor, anchorBytes, hm, he]
    | finish e =>
      have he : 1 ≤ e ∧ e ≤ 16777215 := by simpa using hanchor
      have hm : e % 16777216 = e := by omega
      simp [anchorOk, upTo, readAnchor, anchorBytes, hm, he.1]
    | none | lead | onPause | onResume | onStop | onShowEnd => exact ⟨rfl, rfl⟩
  have hx : cueActionOk (cueActionBytes action) 0 = true ∧ readCueAction (cueActionBytes action) 0 = action := by
    cases action with
    | line n a =>
      have hn : n ≤ 7 := by simpa using haction
      have hm : n % 256 = n := by omega
      simp [cueActionOk, upTo, readCueAction, cueActionBytes, hm, hn]
    | flag x y z => exact ⟨rfl, rfl⟩
    | mark v =>
      have hv : v ≤ 65535 := by simpa using haction
      have hm : v % 65536 = v := by omega
      simp [cueActionOk, upTo, readCueAction, cueActionBytes, hm]
    | sound n =>
      have hn : n ≤ 7 := by simpa using haction
      have hm : n % 256 = n := by omega
      simp [cueActionOk, upTo, readCueAction, cueActionBytes, hm, hn]
  refine ⟨by simp [cueBody], ?_, ?_⟩
  · simp [cueCoded, cueBody, ha.1, hx.1, conditionOk_conditionBytes hcond]
  · simp [readCueBody, cueBody, ha.2, hx.2, readCondition_conditionBytes hcond]

/-! ### Runs of equal parts -/

theorem length_flatMap_of {α : Type} {f : α → List Byte} {w : Nat} (h : ∀ a, (f a).length = w) (l : List α) :
    (l.flatMap f).length = w * l.length := by
  simp [List.length_flatMap, h, Nat.mul_comm]

/-- Part k of a run of parts of w bytes. -/
theorem slice_flatMap {α : Type} {f : α → List Byte} {w : Nat} (h : ∀ a, (f a).length = w) :
    ∀ (l : List α) (k : Nat) (hk : k < l.length), ((l.flatMap f).drop (w * k)).take w = f l[k]
  | a :: l, 0, _ => by simp [List.flatMap_cons, h a]
  | a :: l, k + 1, hk => by
    rw [List.flatMap_cons, slice_append_right (by rw [h a]; exact Nat.le_mul_of_pos_right w k.succ_pos), h a,
      show w * (k + 1) - w = w * k by rw [Nat.mul_succ, Nat.add_sub_cancel], slice_flatMap h l k (by simpa using hk)]
    rfl

theorem bankGet_getElem {α : Type} [Inhabited α] {n : Nat} (v : Vector α n) {k : Nat} (h : k < n) :
    bankGet v k = v[k] := by simp [bankGet, h]

/-- A bank made of another's places is that bank. -/
theorem bankOf_bankGet {α : Type} [Inhabited α] {n : Nat} {v : Vector α n} {f : Nat → α}
    (h : ∀ k, k < n → f k = bankGet v k) : bankOf n f = v := by
  ext k hk
  rw [← bankGet_getElem _ hk, ← bankGet_getElem _ hk, bankGet_of n f k hk, h k hk]

/-! ### The profile body -/

/-- A route in its range passes its check and reads back from its byte. -/
theorem routeByte_readsBack {i : Nat} {r : Route} (h : r.inRange i = true) :
    routeOk i (routeByte r % 256) = true ∧ routeOfByte (routeByte r % 256) = r := by
  cases r with
  | none => simp [routeOk, routeOfByte, routeByte]
  | main c =>
    have hc : c < 16 := by simpa [Route.inRange] using h
    have hm : c % 256 = c := by omega
    simp [routeOk, routeOfByte, routeByte, hm, hc]
  | narration c =>
    have hc : c < 2 ∧ 16 ≤ i := by simpa [Route.inRange] using h
    have hm : (16 + c) % 256 = 16 + c := by omega
    have h1 : ¬ 16 + c < 16 := by omega
    have h2 : 16 + c < 18 := by omega
    simp [routeOk, routeOfByte, routeByte, hm, h2, hc.2]

theorem byteAt_map_routes (x : Profile) {k : Nat} (h : k < 18) (l : List Byte) :
    byteAt (x.routes.toList.map (fun r => BitVec.ofNat 8 (routeByte r)) ++ l) k =
      routeByte (bankGet x.routes k) % 256 := by
  rw [byteAt_append_left (by simp [h]), bankGet_getElem _ h]
  simp [byteAt, h]

theorem field_flatMap_trims (x : Profile) {k : Nat} (h : k < 18) (l : List Byte) :
    field (x.trims.toList.flatMap (be 2) ++ l) (2 * k) 2 = bankGet x.trims k % 65536 := by
  have hl := length_flatMap_of (fun a => length_be 2 a) x.trims.toList
  rw [field_append_left (by rw [hl]; simp; omega), field, slice_flatMap (fun a => length_be 2 a) _ _ (by simpa using h),
    fromBe_be, bankGet_getElem _ h]
  simp

/-- A profile in its ranges passes its coding check and reads back (R181). -/
theorem profileBytes_readsBack {x : Profile} (h : x.inRange = true) : (profileBytes x).length = 56 ∧
    profileCoded (profileBytes x) 0 = true ∧ readProfileBody (profileBytes x) 0 x.generation = x := by
  simp only [Profile.inRange, Bool.and_eq_true, List.all_eq_true, List.mem_range, decide_eq_true_eq] at h
  obtain ⟨hk, hsync⟩ := h
  have hl := length_flatMap_of (fun a => length_be 2 a) x.trims.toList
  refine ⟨by simp [profileBytes, hl], ?_, ?_⟩
  · simp only [profileCoded, List.all_eq_true, List.mem_range]
    intro k h
    rw [profileBytes, List.append_assoc, Nat.zero_add, byteAt_map_routes x h]
    exact (routeByte_readsBack (hk k h).1).1
  · have hr : bankOf 18 (fun k => routeOfByte (byteAt (profileBytes x) (0 + k))) = x.routes := bankOf_bankGet fun k h => by
      rw [profileBytes, List.append_assoc, Nat.zero_add, byteAt_map_routes x h]
      exact (routeByte_readsBack (hk k h).1).2
    have ht : bankOf 18 (fun k => field (profileBytes x) (0 + 18 + 2 * k) 2) = x.trims := bankOf_bankGet fun k h => by
      rw [profileBytes, List.append_assoc, field_append_right (by simp)]
      simp only [List.length_map, Vector.length_toList, Nat.zero_add, Nat.add_sub_cancel_left]
      rw [field_flatMap_trims x h]
      exact Nat.mod_eq_of_lt (Nat.lt_succ_of_le (hk k h).2)
    have hd : min topSync (field (profileBytes x) (0 + 54) 2) = x.syncDelay := by
      have hm : x.syncDelay % 65536 = x.syncDelay := by omega
      rw [profileBytes, field_append_right (by simp [hl])]
      simp [hl, hm, topSync, hsync]
    simp only [readProfileBody, hr, ht, hd]

/-! ### Line configurations and lines -/

/-- An output line's configuration in its ranges passes its check and reads back (R182). -/
theorem outConfigBytes_readsBack {c : OutConfig} (h : c.inRange = true) : (outConfigBytes c).length = 13 ∧
    outConfigOk (outConfigBytes c) 0 = true ∧ readOutConfig (outConfigBytes c) 0 = c := by
  obtain ⟨mode, low, delay, width, count, onTime, offTime, gate⟩ := c
  simp only [OutConfig.inRange, Bool.and_eq_true, decide_eq_true_eq] at h
  obtain ⟨⟨⟨⟨⟨⟨⟨⟨⟨hdelay, hw⟩, hw'⟩, hc⟩, hc'⟩, hon⟩, hon'⟩, hoff⟩, hoff'⟩, hgate⟩ := h
  have r1 : delay % 65536 = delay := by omega
  have r2 : width % 65536 = width := by omega
  have r3 : count % 256 = count := by omega
  have r4 : onTime % 65536 = onTime := by omega
  have r5 : offTime % 65536 = offTime := by omega
  refine ⟨by simp [outConfigBytes], ?_⟩
  cases gate with
  | none => simp [outConfigOk, outConfigBytes, readOutConfig, upTo, optIndexByte, optIndex, r1, r2, r3, r4, r5, hw, hc,
      hon, hoff]
  | some g =>
    have hg : g.1 ≤ 7 := by simpa using hgate
    have hm : g.1 % 256 = g.1 := by omega
    have hn : g.1 ≠ 255 := by omega
    simp [outConfigOk, outConfigBytes, readOutConfig, upTo, optIndexByte, optIndex, r1, r2, r3, r4, r5, hw, hc,
      hon, hoff, hg, hm, hn]

@[simp] theorem length_inActionBytes (a : InAction) : (inActionBytes a).length = 4 := by cases a <;> rfl

theorem readInAction_at (a : InAction) {p : List Byte} {i : Nat} (h : (p.drop i).take 4 = inActionBytes a) :
    readInAction p i = a ∧ byteAt p i ≤ 6 := by
  have get : ∀ k, k < 4 → p.getD (i + k) 0 = (inActionBytes a).getD k 0 := fun k hk => by
    rw [← h, List.getD_eq_getElem?_getD, List.getD_eq_getElem?_getD, List.getElem?_take_of_lt hk, List.getElem?_drop]
  have h0 := get 0 (by decide)
  have h1 := get 1 (by decide)
  have h2 := get 2 (by decide)
  have h3 := get 3 (by decide)
  rw [Nat.add_zero] at h0
  simp only [readInAction, byteAt, maskAt, h0, h1, h2, h3]
  cases a <;> exact ⟨rfl, by simp [inActionBytes]⟩

@[simp] theorem length_inConfigBytes (c : InConfig) : (inConfigBytes c).length = 8 := by simp [inConfigBytes]

theorem inConfigBytes_action (c : InConfig) (l : List Byte) :
    readInAction (inConfigBytes c ++ l) 3 = c.action ∧ byteAt (inConfigBytes c ++ l) 3 ≤ 6 :=
  readInAction_at c.action (by
    rw [slice_append_left (by simp), inConfigBytes, slice_append_left (by simp), slice_append_right (by simp)]
    simp [List.take_of_length_le])

/-- An input line's configuration in its range passes its check and reads back (R182). -/
theorem inConfigBytes_readsBack {c : InConfig} (h : c.inRange = true) : inConfigOk (inConfigBytes c) 0 = true ∧
    readInConfig (inConfigBytes c) 0 = c := by
  have hd : c.debounce % 256 = c.debounce := Nat.mod_eq_of_lt (Nat.lt_succ_of_le (by simpa [InConfig.inRange] using h))
  obtain ⟨ha, hle⟩ := inConfigBytes_action c []
  rw [List.append_nil] at ha hle
  constructor
  · simp only [inConfigOk, upTo, Nat.zero_add, hle]
    simp [inConfigBytes]
  · simp only [readInConfig, Nat.zero_add, ha]
    simp [inConfigBytes, hd]

/-- An output line's fields in the places of R182. -/
theorem outLineBytes_fields (x : OutLine) : let l := outLineBytes x
    l.length = 20 ∧ field l 0 1 = x.config.mode.code ∧ flagAt l 1 = x.config.activeLow ∧
      field l 2 2 = x.config.delay % 65536 ∧ field l 4 2 = x.config.width % 65536 ∧
      field l 6 1 = x.config.count % 256 ∧ field l 7 2 = x.config.onTime % 65536 ∧
      field l 9 2 = x.config.offTime % 65536 ∧
      field l 11 1 = (match x.config.gate with | some g => g.1 % 256 | none => 255) ∧
      flagAt l 12 = (match x.config.gate with | some g => g.2 | none => false) ∧
      flagAt l 13 = x.active ∧ field l 14 1 = x.activity.code ∧ field l 15 2 = x.spanRemaining % 65536 ∧
      field l 17 1 = x.pulsesDone % 256 ∧ field l 18 2 = x.busyTriggers % 65536 := by
  intro l
  simp only [l, outLineBytes, outConfigBytes]
  cases x.config.gate <;> simp [optIndexByte]

/-- An input line's fields in the places of R182. -/
theorem inLineBytes_fields (x : InLine) (held : Bool) : let l := inLineBytes x held
    l.length = 12 ∧ flagAt l 0 = x.config.activeLow ∧ field l 1 1 = x.config.edge.code ∧
      field l 2 1 = x.config.debounce % 256 ∧ readInAction l 3 = x.config.action ∧ flagAt l 7 = x.config.held ∧
      flagAt l 8 = (x.pinHigh != x.config.activeLow) ∧ flagAt l 9 = x.accepted ∧ flagAt l 10 = held ∧
      flagAt l 11 = x.unread := by
  intro l
  have ha : readInAction l 3 = x.config.action := by
    simp only [l, inLineBytes, List.append_assoc]
    exact (inConfigBytes_action x.config _).1
  simp only [ha, true_and]
  simp only [l, inLineBytes, inConfigBytes, InLine.sampled]
  simp

/-! ### Booth times that may be absent -/

theorem optTimeBytes_fields (o : Option BoothTime) : let l := optTimeBytes o
    l.length = 6 ∧ (o = none → l = List.replicate 6 0) ∧
      (∀ x, o = some x → l = timeBytes x ∧ field l 0 4 = x.seconds % 4294967296 ∧ field l 4 1 = x.fraction % 256 ∧
        field l 5 1 = (if x.isSet then 3 else 2)) := by
  refine ⟨length_optTimeBytes o, fun h => ?_, fun x h => ?_⟩
  · rw [h]
    exact be_zero 6
  · rw [h]
    exact ⟨rfl, timeBytes_fields x⟩

@[simp] theorem slice_all {l : List Byte} {w : Nat} (h : l.length = w) : (l.drop 0).take w = l := by
  rw [List.drop_zero, List.take_of_length_le (Nat.le_of_eq h)]

/-! ### The showing record -/

theorem length_resultBytes (x : SegResult) : (resultBytes x).length = 17 := by simp [resultBytes]

theorem be_one (n : Nat) : be 1 n = [BitVec.ofNat 8 n] := by simp [be]

theorem flatMap_be_one {α : Type} (f : α → Nat) (l : List α) :
    l.flatMap (fun a => be 1 (f a)) = l.map (fun a => BitVec.ofNat 8 (f a)) := by
  simp only [be_one, List.map_eq_flatMap]

theorem drop_append_right {a b : List Byte} {i : Nat} (h : a.length ≤ i) : (a ++ b).drop i = b.drop (i - a.length) := by
  rw [List.drop_append, List.drop_eq_nil_of_le h, List.nil_append]

/-- The record's fields in the places of R183. -/
theorem recordBytes_fields (status first : Nat) (x : ShowRecord) : let l := be 1 status ++ recordBytes first x
    field l 0 1 = status % 256 ∧ field l 1 4 = x.number % 4294967296 ∧ (l.drop 5).take 6 = timeBytes x.cueTime ∧
      (l.drop 11).take 6 = optTimeBytes x.startTime ∧ flagAt l 17 = x.counted ∧
      (l.drop 18).take 6 = optTimeBytes x.countTime ∧ field l 24 4 = x.pauses % 4294967296 ∧
      field l 28 4 = x.pausedTime % 4294967296 ∧ field l 32 4 = x.clips % 4294967296 ∧
      field l 36 4 = x.cuesDropped % 4294967296 ∧ field l 40 4 = x.badCues % 4294967296 ∧
      field l 44 4 = x.missing % 4294967296 ∧ (l.drop 48).take 6 = optTimeBytes x.endTime ∧
      field l 54 1 = (match x.endCause with | some c => c.code | none => 255) ∧
      field l 55 1 = x.results.length % 256 ∧ field l 56 1 = min 40 (x.results.length - first) ∧
      field l 57 1 = x.bound.length % 256 := by
  intro l
  unfold l recordBytes
  have hcause : ((x.endCause.map EndCause.code).getD 255) % 256 =
      match x.endCause with | some c => c.code | none => 255 := by
    cases x.endCause with
    | none => rfl
    | some c => exact EndCause.code_byte c
  have hmin : min 40 (x.results.length - first) % 256 = min 40 (x.results.length - first) := by omega
  simp [resultsFrom, hcause, hmin]

/-- The record's lists stand after its fields, each result of 17 bytes (R183). -/
theorem recordBytes_lists (status first : Nat) (x : ShowRecord) :
    (be 1 status ++ recordBytes first x).drop 58 = x.bound.map (BitVec.ofNat 8) ++ be 1 x.countedLicences.length ++
      x.countedLicences.map (fun a => BitVec.ofNat 8 a.1) ++ (resultsFrom first x).flatMap resultBytes := by
  have hb : x.bound.flatMap (be 1) = x.bound.map (BitVec.ofNat 8) := flatMap_be_one (fun a => a) x.bound
  have hc : x.countedLicences.flatMap (fun a => be 1 a.1) = x.countedLicences.map (fun a => BitVec.ofNat 8 a.1) :=
    flatMap_be_one (fun a => a.1) x.countedLicences
  unfold recordBytes
  rw [hb, hc]
  simp [drop_append_right]

/-! ### The showing log -/

theorem keyPlaces_slice (l : List Id128) {i : Nat} (h : i < 8) :
    ((keyPlaces l).drop (16 * i)).take 16 = idBytes (l.getD i 0) := by
  rw [keyPlaces, slice_flatMap (fun a => length_idBytes _) _ i (by simpa using h), List.getElem_range]

@[simp] theorem length_keyPlaces (l : List Id128) : (keyPlaces l).length = 128 :=
  length_flatMap_of (fun _ => length_idBytes _) (List.range 8)

/-- The key places of a log record start at byte 43 (R183). -/
theorem logBytes_keyPlaces (x : LogRecord) (r : Recorder) : ∃ l, (logBytes x r).drop 43 = keyPlaces x.keyIds ++ l := by
  unfold logBytes
  simp only [List.append_assoc, drop_append_right, length_be, length_optTimeBytes, length_yesNo, length_idBytes,
    Nat.reduceLeDiff, Nat.reduceSub, Nat.le_refl, Nat.sub_self, List.drop_zero]
  exact ⟨_, rfl⟩

/-- The key ids of a log record in their places (R183). -/
theorem logBytes_keyId (x : LogRecord) (r : Recorder) {i : Nat} (h : i < 8) :
    idField (logBytes x r) (43 + 16 * i) = x.keyIds.getD i 0 := by
  obtain ⟨l, hl⟩ := logBytes_keyPlaces x r
  have e : field (logBytes x r) (43 + 16 * i) 16 = field (idBytes (x.keyIds.getD i 0)) 0 16 := by
    rw [field, ← List.drop_drop, hl, slice_append_left (by rw [length_keyPlaces]; omega), keyPlaces_slice _ h,
      field_all (length_idBytes _)]
  rw [idField, e]
  exact idField_idBytes _

/-- A log record's fields and the log's stands in the places of R183. -/
theorem logBytes_fields (x : LogRecord) (r : Recorder) (h : x.keyIds.length ≤ 8) : let l := logBytes x r
    l.length = 208 ∧ field l 0 4 = x.number % 4294967296 ∧ (l.drop 4).take 6 = optTimeBytes x.startTime ∧
      (l.drop 10).take 6 = optTimeBytes x.endTime ∧ field l 16 1 = x.endCause.code ∧ flagAt l 17 = x.counted ∧
      (l.drop 18).take 6 = optTimeBytes x.countTime ∧ flagAt l 24 = x.feature.isSome ∧
      idField l 25 = x.feature.getD 0 ∧ field l 41 1 = x.keyIds.length ∧ flagAt l 42 = x.more := by
  intro l
  have hm : x.keyIds.length % 256 = x.keyIds.length := by omega
  unfold l logBytes
  simp [hm]

theorem logBytes_counts (x : LogRecord) (r : Recorder) : let l := logBytes x r
    field l 171 4 = x.unitsOutput % 4294967296 ∧
      field l 175 4 = x.pictureConcealed % 4294967296 ∧ field l 179 4 = x.soundConcealed % 4294967296 ∧
      field l 183 4 = x.cuesDropped % 4294967296 ∧ field l 187 4 = x.clips % 4294967296 ∧ flagAt l 191 = x.collected ∧
      field l 192 2 = r.log.length % 65536 ∧ field l 194 2 = (r.log.filter (fun y => !y.collected)).length % 65536 ∧
      field l 196 4 = r.overwrites % 4294967296 ∧
      field l 200 4 = (match r.log.head? with | some y => y.number | none => 0) % 4294967296 ∧
      field l 204 4 = (match r.log.getLast? with | some y => y.number | none => 0) % 4294967296 := by
  intro l
  have hh : (r.log.head?.map (·.number)).getD 0 = match r.log.head? with | some y => y.number | none => 0 := by
    cases r.log.head? <;> rfl
  have hl : (r.log.getLast?.map (·.number)).getD 0 = match r.log.getLast? with | some y => y.number | none => 0 := by
    cases r.log.getLast? <;> rfl
  unfold l logBytes
  rw [hh, hl]
  simp [uncollected]

/-- Settles O59, body by body. -/
theorem bodiesReadBack : Obligations.bodies_read_back := by
  refine ⟨fun e h => ⟨length_entryBody e, ?_, readEntryBody_entryBody h⟩, fun c h => cueBody_readsBack h,
    fun x h => profileBytes_readsBack h, fun c h => outConfigBytes_readsBack h,
    fun c h => ⟨length_inConfigBytes c, inConfigBytes_readsBack h⟩, outLineBytes_fields, inLineBytes_fields,
    optTimeBytes_fields, fun status first x => ?_, fun x r h => ?_⟩
  · simp only [Entry.inRange, Bool.and_eq_true] at h
    exact entryCoded_entryBody h.1.2
  · obtain ⟨h1, h2, h3, h4, h5, h6, h7, h8, h9, h10, h11, h12, h13, h14, h15, h16, h17⟩ :=
      recordBytes_fields status first x
    exact ⟨h1, h2, h3, h4, h5, h6, h7, h8, h9, h10, h11, h12, h13, h14, h15, h16, h17,
      recordBytes_lists status first x, length_flatMap_of length_resultBytes _⟩
  · obtain ⟨h1, h2, h3, h4, h5, h6, h7, h8, h9, h10, h11⟩ := logBytes_fields x r h
    exact ⟨h1, h2, h3, h4, h5, h6, h7, h8, h9, h10, h11, fun i hi => logBytes_keyId x r hi, logBytes_counts x r⟩

end Sys2Proof.Machine
end

section
/-! PROOF. The booth line requests and the show control requests (R14 to R16, R20 to R24, R146, R147, R152, R169). -/

namespace Sys2Proof.Machine

/-! ### Line actions -/

/-- A LINE ACTION at the head that the row performs is replied to with what the action answers. -/
theorem performsAction_answers {s t : State} {a : LineAct} {r : Request} {rest : List Request} {o : ReplyOutcome}
    {d : List Byte} (h : HeadIs s 17 r rest) (hl : r.params.length = 2)
    (ha : 4 < byteAt r.params 1 ∨ byteAt r.params 1 = a.code) (e : lineAction a r.params s = ⟨o, d, t⟩) :
    performsAction a s = .next (replied r o d t) := by
  have hrow : actionRow a r = true := by
    rcases ha with ha | ha <;> simp [actionRow, h.isKind, ha]
  rw [performsAction, perform_head h _ hrow, answered_eq, sized, if_pos hl, e]

/-- An action on a line 0-7: the line as the action leaves it, its level, activity and the disposition answered. -/
theorem lineAction_eq {s : State} {a : LineAct} {p : List Byte} {n : Nat} (hn : n ≤ 7) (h0 : byteAt p 0 = n)
    (h1 : byteAt p 1 = a.code) {y : OutLine} {d : Disposition}
    (hy : (bankGet s.lines.outputs n).act s.lines.inputs a = (y, d)) :
    lineAction a p s = ⟨.ok, yesNo y.active ++ be 1 y.activity.code ++ be 1 d.code,
      s.withLines { s.lines with outputs := bankSet s.lines.outputs n y }⟩ := by
  have hn' : ¬ 7 < n := Nat.not_lt.mpr hn
  have ha : ¬ 4 < a.code := Nat.not_lt.mpr a.code_le
  have hg : bankGet (bankSet s.lines.outputs n y) n = y := bankGet_set_same _ _ _ (by omega)
  simp only [lineAction, h0, h1, hn', ha, if_false, lineAct, hy, State.withLines_lines, hg, accept]

/-- A LINE ACTION of an action's row on a line 0-7 at the head of the queue. -/
theorem performsAction_applied (a : LineAct) {s : State} {r : Request} {rest : List Request} {n : Nat}
    (h : HeadIs s 17 r rest) (hn : n ≤ 7) (hp : r.params = [BitVec.ofNat 8 n, BitVec.ofNat 8 a.code]) {y : OutLine}
    {d : Disposition} (hy : (bankGet s.lines.outputs n).act s.lines.inputs a = (y, d)) :
    performsAction a s = .next (replied r .ok (yesNo y.active ++ be 1 y.activity.code ++ [BitVec.ofNat 8 d.code])
      (s.withLines { s.lines with outputs := bankSet s.lines.outputs n y })) := by
  have h0 : byteAt r.params 0 = n := by
    rw [hp]
    exact Nat.mod_eq_of_lt (by omega)
  have h1 : byteAt r.params 1 = a.code := by
    rw [hp]
    exact a.code_byte
  have e := lineAction_eq hn h0 h1 hy
  rw [be_one d.code] at e
  exact performsAction_answers h (by simp [hp]) (.inr h1) e

/-! ### What an action does to a line (R143 to R146) -/

theorem act_level {x : OutLine} (h : x.config.mode = .level) (i : Vector InLine 8) :
    x.act i .set = ({ x with active := true }, .applied) ∧ x.act i .clear = ({ x with active := false }, .applied) ∧
      x.act i .toggle = ({ x with active := !x.active }, .applied) := by
  simp [OutLine.act, h]

theorem act_trigger_idle {x : OutLine} (hm : x.config.mode = .pulse ∨ x.config.mode = .train) (hi : x.activity = .idle)
    (i : Vector InLine 8) : x.act i .trigger = (x.trigger i, .applied) := by
  rcases hm with hm | hm <;> simp [OutLine.act, hm, hi]

theorem act_trigger_busy {x : OutLine} (hm : x.config.mode = .pulse ∨ x.config.mode = .train) (hi : x.activity ≠ .idle)
    (i : Vector InLine 8) : x.act i .trigger = ({ x with busyTriggers := min 65535 (x.busyTriggers + 1) }, .busy) := by
  rcases hm with hm | hm <;> simp [OutLine.act, hm, hi, addTo, top16]

theorem act_stop {x : OutLine} (hm : x.config.mode = .pulse ∨ x.config.mode = .train) (i : Vector InLine 8) :
    x.act i .stop =
      (if x.activity = .idle then x else { x with active := false, activity := .idle, spanRemaining := 0 }, .applied) := by
  rcases hm with hm | hm <;> simp [OutLine.act, hm, OutLine.rest]

/-- An action foreign to the mode leaves the line and is IGNORED (R146). -/
theorem act_ignored {x : OutLine} {a : LineAct} (h : ignores x.config.mode a = true) (i : Vector InLine 8) :
    x.act i a = (x, .ignored) := by
  unfold OutLine.act
  cases hm : x.config.mode <;> cases a <;> simp_all [ignores]

/-- Settles O19, by the three actions a LEVEL line takes. -/
theorem levelLineTakesSetClearToggle : Obligations.level_line_takes_set_clear_toggle := by
  intro s r rest n h hn hm x leave
  obtain ⟨hset, hclear, htoggle⟩ := act_level hm s.lines.inputs
  exact ⟨fun hp => performsAction_applied .set h hn hp hset, fun hp => performsAction_applied .clear h hn hp hclear,
    fun hp => performsAction_applied .toggle h hn hp htoggle⟩

/-- Settles O20, by TRIGGER on an IDLE line and on one in progress, and STOP. -/
theorem pulseAndTrainTakeTriggerAndStop : Obligations.pulse_and_train_take_trigger_and_stop := by
  intro s r rest n h hn x leave
  refine ⟨fun hp hi hm hd => ?_, fun hp hi hm hd => ?_, fun hp hi hm => ?_,
    fun hp hi hm => performsAction_applied .trigger h hn hp (act_trigger_busy hm hi _),
    fun hp hm => performsAction_applied .stop h hn hp (act_stop hm _)⟩
  · have ht : x.trigger s.lines.inputs = { x with active := false, activity := .delaying, spanRemaining := x.config.delay } := by
      simp [OutLine.trigger, hm, hd]
    exact performsAction_applied .trigger h hn hp (ht ▸ act_trigger_idle (.inl hm) hi _)
  · have ht : x.trigger s.lines.inputs = { x with active := true, activity := .on, spanRemaining := x.config.width } := by
      simp [OutLine.trigger, hm, hd, OutLine.turnOn]
    exact performsAction_applied .trigger h hn hp (ht ▸ act_trigger_idle (.inl hm) hi _)
  · have e := act_trigger_idle (.inr hm) hi s.lines.inputs
    have ht : x.trigger s.lines.inputs = ({ x with pulsesDone := 0 } : OutLine).trainPulse s.lines.inputs := by
      simp [OutLine.trigger, hm]
    rw [ht, OutLine.trainPulse] at e
    split at e
    · rename_i hg
      rw [if_pos hg]
      exact performsAction_applied .trigger h hn hp e
    · rename_i hg
      rw [if_neg hg]
      exact performsAction_applied .trigger h hn hp e

/-- The line replaced by itself is the state unchanged. -/
theorem setOutput_self (s : State) (n : Nat) :
    s.withLines { s.lines with outputs := bankSet s.lines.outputs n (bankGet s.lines.outputs n) } = s := by
  rw [bankSet_get_self]
  rfl

theorem exec_actionRow {x : Instr × LineAct} (h : x ∈ actionRows) (s : State) : exec x.1 s = performsAction x.2 s := by
  simp only [actionRows, List.mem_cons, List.not_mem_nil, or_false] at h
  rcases h with rfl | rfl | rfl | rfl | rfl <;> rfl

/-- Settles O21, by the disposition of a foreign action and the two refusals of LINE ACTION in their order. -/
theorem foreignLineActionIgnored : Obligations.foreign_line_action_ignored := by
  intro x hx s r rest n h hn
  rw [exec_actionRow hx]
  refine ⟨fun hp hn7 hig => ?_, fun hp h7 => ?_, fun a ha ha' hn7 hp => ?_⟩
  · have e := performsAction_applied x.2 h hn7 hp (act_ignored hig s.lines.inputs)
    rwa [setOutput_self] at e
  · have h0 : byteAt r.params 0 = n := by
      rw [hp]
      exact Nat.mod_eq_of_lt (by omega)
    have h1 : byteAt r.params 1 = x.2.code := by
      rw [hp]
      exact x.2.code_byte
    exact performsAction_answers h (by simp [hp]) (.inr h1) (by simp [lineAction, h0, h7, refuseIndex])
  · have h0 : byteAt r.params 0 = n := by
      rw [hp]
      exact Nat.mod_eq_of_lt (by omega)
    have h1 : byteAt r.params 1 = a := by
      rw [hp]
      exact Nat.mod_eq_of_lt (by omega)
    have h7 : ¬ 7 < n := Nat.not_lt.mpr hn7
    exact performsAction_answers h (by simp [hp]) (.inl (h1 ▸ ha)) (by simp [lineAction, h0, h1, h7, ha, refuse])

/-! ### CONFIGURE LINE -/

/-- The row of a line kind performs a CONFIGURE LINE of that kind and length. -/
theorem configured_answers {s t : State} {k n : Nat} {r : Request} {rest : List Request} {o : ReplyOutcome}
    {d : List Byte} {f : List Byte → State → Answer} (h : HeadIs s 16 r rest) (hn : r.params.length = n) (hpos : 0 < n)
    (hk : byteAt r.params 0 = k) (ha : f r.params s = ⟨o, d, t⟩) :
    Host.Outcome.next (perform (configureRow k) (configured k n f) s) =
      (.next (replied r o d t) : Host.Outcome State Fault Refusal) := by
  have hrow : configureRow k r = true := by simp [configureRow, h.isKind, hk]
  have hne : ¬ (r.params.isEmpty = true ∨ byteAt r.params 0 ≠ k) := by
    rintro (he | he)
    · rw [List.isEmpty_iff.mp he] at hn
      exact absurd hn (by simp; omega)
    · exact he hk
  rw [perform_head h _ hrow, answered_eq, configured, if_neg hne, sized, if_pos hn, ha]

/-- An input reconfigured: line n and its place in the held inputs set, and nothing else of lines and Sequencer but a
pending go, resume and timeout (R152). -/
theorem configureInput_eq (n : Nat) (c : InConfig) (s : State) :
    let x := bankGet s.lines.inputs n
    let t := configureInput n c s
    t.lines = { s.lines with
      inputs := bankSet s.lines.inputs n { x with config := c, stable := 0, accepted := x.pinHigh != c.activeLow } } ∧
    (∀ m, m < 8 → inHeld m t = if m = n then c.held && (x.pinHigh != c.activeLow) else inHeld m s) ∧
    t.seq.state = s.seq.state ∧ t.seq.offset = s.seq.offset ∧ t.seq.pend.stop = s.seq.pend.stop ∧
    t.seq.pend.pause = s.seq.pend.pause := by
  intro x t
  unfold t configureInput
  dsimp only
  generalize hu : setInput n _ s = u
  have hlines : u.lines = { s.lines with
      inputs := bankSet s.lines.inputs n { x with config := c, stable := 0, accepted := x.pinHigh != c.activeLow } } := by
    rw [← hu]
    rfl
  have hseq : u.seq = s.seq := by
    rw [← hu]
    rfl
  have hheld : ∀ m, inHeld m u = inHeld m s := fun m => by rw [inHeld, hseq, inHeld]
  split
  · rename_i hc
    split
    · rename_i hin
      refine ⟨hlines, fun m hm => ?_, by rw [hseq], by rw [hseq], by rw [hseq], by rw [hseq]⟩
      split
      · rename_i e
        rw [e, hin]
        exact hc.symm
      · exact hheld m
    · obtain ⟨-, -, hstop, hpause, hstate, -, hoff, hl⟩ := joinHeld_seq n u
      refine ⟨hl.trans hlines, fun m hm => ?_, hstate.trans (by rw [hseq]), hoff.trans (by rw [hseq]),
        hstop.trans (by rw [hseq]), hpause.trans (by rw [hseq])⟩
      rw [joinHeld_held n m hm]
      split
      · rename_i e
        simp only [e, decide_true, Bool.true_or]
        exact hc.symm
      · rename_i e
        simp [e, hheld]
  · rename_i hc
    split
    · refine ⟨hlines, fun m hm => ?_, show u.seq.state = _ by rw [hseq], show u.seq.offset = _ by rw [hseq],
        show u.seq.pend.stop = _ by rw [hseq], show u.seq.pend.pause = _ by rw [hseq]⟩
      rw [leaveHeld_held n m hm]
      split
      · rename_i e
        simp only [e, decide_true, Bool.not_true, Bool.and_false]
        exact (Bool.eq_false_iff.mpr hc).symm
      · rename_i e
        simp [e, hheld]
    · rename_i hin
      refine ⟨hlines, fun m hm => ?_, by rw [hseq], by rw [hseq], by rw [hseq], by rw [hseq]⟩
      split
      · rename_i e
        rw [e, Bool.eq_false_iff.mpr hin]
        exact (Bool.eq_false_iff.mpr hc).symm
      · exact hheld m

/-- Settles O18, by the two rows of CONFIGURE LINE. -/
theorem configureLineStartsLineAnew : Obligations.configure_line_starts_line_anew := by
  intro s r rest h hn n
  have hn' : ¬ 7 < byteAt r.params 1 := Nat.not_lt.mpr hn
  refine ⟨fun hl hk hok => configured_answers h hl (by decide) hk ?_, fun hl hk hok => ?_⟩
  · simp only [configureOutputLine, hn', hok, if_false, Bool.true_eq_false, accept]
    rfl
  · obtain ⟨hlines, hheld, hstate, hoff, hstop, hpause⟩ := configureInput_eq n (readInConfig r.params 2) s
    refine ⟨configureInput n (readInConfig r.params 2) s, configured_answers h hl (by decide) hk ?_,
      configureInput_only _ _ s, ?_, fun m hm => ?_, ?_, ?_, ?_, fun m hm hmn => ?_, hstate, hoff, hstop, hpause⟩
    · simp only [configureInputLine, hn', hok, if_false, Bool.true_eq_false, accept]
      rfl
    · rw [hlines]
      exact bankGet_set_same _ _ _ (by omega)
    · rw [hlines]
      exact bankGet_set_other _ _ _ _ (Ne.symm hm)
    · rw [hlines]
    · rw [hlines]
    · rw [hheld n (by omega), if_pos rfl]
    · rw [hheld m hm, if_neg hmn]

/-! ### CUE SHOW refused -/

/-- Selection finds no entry where none that is not alternate-only has its condition hold. -/
theorem selectFrom_none {l : Vector Entry 128} {flags : Mask8} : ∀ (js : List Nat),
    (∀ i ∈ js, (bankGet l i).altOnly = false → (bankGet l i).cond.holds flags = false) → (selectFrom l flags js).2 = none
  | [], _ => rfl
  | i :: js, h => by
    have ih := selectFrom_none js fun j hj => h j (List.mem_cons_of_mem _ hj)
    rw [selectFrom]
    split
    · exact ih
    · rename_i ha
      rw [h i List.mem_cons_self (Bool.eq_false_iff.mpr ha)]
      exact ih

theorem showLength_zero {l : Vector Entry 128} (h : (bankGet l 0).cls = .empty) : showLength l = 0 := by
  have h0 : l[0].cls = .empty := by simpa [bankGet] using h
  rw [showLength, List.findIdx_eq (by simp)]
  exact ⟨by simpa using h0, nofun⟩

theorem showLength_pos {l : Vector Entry 128} (h : (bankGet l 0).cls ≠ .empty) : showLength l ≠ 0 := by
  have h0 : l[0].cls ≠ .empty := by simpa [bankGet] using h
  intro e
  rw [showLength, List.findIdx_eq (by simp)] at e
  exact h0 (by simpa using e.1)

/-- A CUE SHOW that a check refuses answers that refusal and changes nothing. -/
theorem cueShow_refused {s : State} {r : Request} {rest : List Request} {o : ReplyOutcome} {d : List Byte}
    (h : HeadIs s 20 r rest) (hp : r.params = []) (hr : cueRefusal s = some (o, d)) :
    exec .cueShow s = .next (replied r o d s) :=
  performs_answers h (by simp [hp]) (by simp [cueShow, hr])

/-- Settles O24, by the checks of R7 in their order. -/
theorem cueShowRefusedChangesNothing : Obligations.cue_show_refused_changes_nothing := by
  intro s r rest h hp
  refine ⟨fun hs => cueShow_refused h hp ?_, fun hs he => cueShow_refused h hp ?_,
    fun i hs he hb => cueShow_refused h hp ?_, fun hs he hb hn => cueShow_refused h hp ?_,
    fun hs he hb hn hl => cueShow_refused h hp ?_, fun hs he hb hn hl hx => ⟨fun hc => cueShow_refused h hp ?_,
      fun i k hc hu => cueShow_refused h hp ?_⟩⟩
  · simp [cueRefusal, hs]
  · simp [cueRefusal, hs, showLength_zero he]
  · simp [cueRefusal, hs, showLength_pos he, hb]
  · have hsel : (selectAt s.showList s.seq.flags 0).2 = none :=
      selectFrom_none _ fun i hi => hn i (by simpa using hi)
    simp [cueRefusal, hs, showLength_pos he, hb, hsel]
  · simp [cueRefusal, hs, showLength_pos he, hb, hn, hl, lastNumber]
  · simp [cueRefusal, hs, showLength_pos he, hb, hn, hl, lastNumber, licenceRefusal, hx, hc]
  · simp [cueRefusal, hs, showLength_pos he, hb, hn, hl, lastNumber, licenceRefusal, hx, hc, hu]

/-! ### GO, STOP, PAUSE, RESUME -/

/-- The limit test makes the timeout pending where the limit is reached (R21). -/
theorem testLimit_eq (q : Sequencer) :
    q.testLimit = { q with pend := { q.pend with timeout := q.pend.timeout || q.limitReached } } := by
  unfold Sequencer.testLimit
  split
  · rename_i h
    rw [h, Bool.or_true]
  · rename_i h
    rw [Bool.eq_false_iff.mpr h, Bool.or_false]

/-- A control request is replied to with its control's outcome. -/
theorem control_answers {s t : State} {k : Nat} {r : Request} {rest : List Request} {o : ReplyOutcome}
    {f : State → ReplyOutcome × State} (h : HeadIs s k r rest) (hp : r.params = []) (hf : f s = (o, t)) :
    performs k (sized 0 (asControl f)) s = .next (replied r o [] t) :=
  performs_answers h (by simp [hp]) (by simp [asControl, hf])

/-- Settles O25, by the control and the Sequencer state. -/
theorem controlsBecomePending : Obligations.controls_become_pending := by
  intro s r rest hp
  refine ⟨fun h => ?_, fun h => ?_, fun h => ⟨fun hs => control_answers h hp ?_, fun hs hr => control_answers h hp ?_,
    fun hs hr => control_answers h hp ?_, fun hs => control_answers h hp ?_⟩,
    fun h => ⟨fun hs => ?_, fun hs => ?_, fun hs => control_answers h hp ?_⟩⟩
  · show performs 21 (sized 0 (asControl takeGo)) s = _
    split
    · rename_i hs
      split
      · rename_i hh
        exact control_answers h hp (by rcases hs with hs | hs <;> simp [takeGo, hs, hh])
      · rename_i hh
        exact control_answers h hp (by rcases hs with hs | hs <;> simpa [takeGo, hs] using hh)
    · rename_i hs
      refine control_answers h hp ?_
      unfold takeGo
      cases hc : s.seq.state <;> simp_all
  · show performs 24 (sized 0 (asControl takeStop)) s = _
    split
    · rename_i hs
      exact control_answers h hp (if_pos hs)
    · rename_i hs
      exact control_answers h hp (if_neg hs)
  · rcases hs with hs | hs <;> simp [takePause, hs]
  · simp [takePause, hs, hr]
  · simp only [takePause, hs, hr, if_true, testLimit_eq, Sequencer.limitReached]
    simp
  · rcases hs with hs | hs | hs <;> simp [takePause, hs]
  · show performs 23 (sized 0 (asControl takeResume)) s = _
    split
    · rename_i hh
      exact control_answers h hp (by simp [takeResume, hs, hh])
    · rename_i hh
      exact control_answers h hp (by simpa [takeResume, hs] using hh)
  · show performs 23 (sized 0 (asControl takeResume)) s = _
    split
    · rename_i hn
      exact control_answers h hp (by rcases hs with hs | hs <;> simp [takeResume, hs, hn])
    · rename_i hn
      split
      · rename_i hh
        exact control_answers h hp (by rcases hs with hs | hs <;> simp [takeResume, hs, hn, hh])
      · rename_i hh
        exact control_answers h hp (by rcases hs with hs | hs <;> simpa [takeResume, hs, hn] using hh)
  · rcases hs with hs | hs | hs <;> simp [takeResume, hs]

/-! ### SET FLAGS and SET LIMITS -/

/-- Each flag after a change, as the table of R20 gives it. -/
theorem changeFlags_bit (flags set clear toggle : Mask8) {k : Nat} (hk : k < 8) :
    (changeFlags flags set clear toggle).getLsbD k =
      (if toggle.getLsbD k then !flags.getLsbD k
      else if set.getLsbD k && clear.getLsbD k then !flags.getLsbD k
      else if set.getLsbD k then true
      else if clear.getLsbD k then false
      else flags.getLsbD k) := by
  simp only [changeFlags, BitVec.getLsbD_or, BitVec.getLsbD_and, BitVec.getLsbD_not, hk, decide_true, Bool.true_and]
  cases toggle.getLsbD k <;> cases set.getLsbD k <;> cases clear.getLsbD k <;> simp

/-- Settles O26, bit by bit. -/
theorem setFlagsFollowsTable : Obligations.set_flags_follows_table := by
  intro s r rest h hl
  exact ⟨_, performs_answers h hl rfl, fun k hk => changeFlags_bit _ _ _ _ hk⟩

/-- SET LIMITS outside PLAYING, and in PLAYING where no starved pause is to be made pending: the pause limit's test. -/
theorem limited_eq (a b : Nat) (q : Sequencer) : q.limited a b = { q with
    pauseLimit := a
    starveLimit := b
    pend := { q.pend with
      timeout := q.pend.timeout || (q.state == .paused && !q.pend.resume && decide (0 < a) &&
        decide (256 * a ≤ q.pauseSteps)) } } := testLimit_eq _

/-- The limits stored make a starved pause pending: in PLAYING, at a reached limit, with none pending (R23). -/
def starvesAt (b : Nat) (q : Sequencer) : Bool :=
  q.state == .playing && decide (0 < b) && decide (b ≤ q.starvation) && !q.starvePending

theorem setLimits_after (p : List Byte) (s : State) : (setLimits p s).after =
    (let s1 := s.withSeq (s.seq.limited (min 3600 (field p 0 2)) (min 240 (field p 2 2)))
     if starvesAt (min 240 (field p 2 2)) s.seq then starve s1 else s1) := by
  have hst : ∀ a b, ((s.seq.limited a b).starves && !(s.seq.limited a b).starvePending) = starvesAt b s.seq := fun a b => by
    rw [limited_eq]
    rfl
  simp only [setLimits, accept, State.withSeq_seq, hst]
  rfl

/-- Settles O27, by the pause test made in PAUSED and the starvation test made in PLAYING. -/
theorem setLimitsStoresAndTests : Obligations.set_limits_stores_and_tests := by
  intro s r rest h hl a b reached starved
  have ht := setLimits_after r.params s
  refine ⟨(setLimits r.params s).after, performs_answers h hl rfl, ?_⟩
  rw [ht]
  dsimp only
  have hq := limited_eq a b s.seq
  have hpend : s.seq.state ≠ .paused → (s.seq.limited a b).pend = s.seq.pend := fun hn => by
    have hf : (s.seq.state == .paused) = false := beq_eq_false_iff_ne.mpr hn
    rw [hq]
    simp only [hf, Bool.false_and, Bool.or_false]
  split
  · rename_i hs
    simp only [starvesAt, Sequencer.starvePending, Bool.and_eq_true, beq_iff_eq, decide_eq_true_eq, Bool.not_eq_true',
      beq_eq_false_iff_ne] at hs
    obtain ⟨⟨⟨hplay, hb⟩, hreach⟩, hpause⟩ := hs
    have hn : s.seq.state ≠ .paused := hplay ▸ nofun
    have hpa := hpend hn
    refine ⟨((only_withSeq s _).trans (starve_only _)).mono (by decide), ?_, fun e => absurd e hn, fun _ => ⟨fun _ _ => ⟨?_, ?_⟩,
      fun hx => ?_⟩, fun _ e => absurd hplay e⟩
    · show (starve (s.withSeq (s.seq.limited a b))).seq = _
      rw [hq]
      rfl
    · show ({ (s.seq.limited a b).pend with pause := some .starved, resume := false } : PendingControls) = _
      rw [hpa]
    · show (starve (s.withSeq (s.seq.limited a b))).reports = _
      rw [hq]
      rfl
    · rcases hx with hx | hx
      · exact absurd ⟨hb, hreach⟩ hx
      · exact absurd hx hpause
  · rename_i hs
    refine ⟨(only_withSeq s _).mono (by decide), ?_, fun hp => ⟨rfl, fun hr hres => ?_, fun hr => ?_⟩,
      fun hp => ⟨fun hst hpa => absurd ?_ hs, fun _ => ⟨hpend (hp ▸ nofun), rfl⟩⟩, fun hn _ => ⟨hpend hn, rfl⟩⟩
    · show s.seq.limited a b = { s.seq with pauseLimit := a, starveLimit := b, pend := (s.seq.limited a b).pend }
      rw [hq]
    · show (s.seq.limited a b).pend = _
      rw [hq]
      simp [hp, hres, hr.1, hr.2]
    · show (s.seq.limited a b).pend = _
      rw [hq]
      have hf : (s.seq.state == .paused && !s.seq.pend.resume && decide (0 < a) &&
          decide (256 * a ≤ s.seq.pauseSteps)) = false := by
        rcases hr with hr | hr
        · rw [Bool.and_assoc, ← Bool.decide_and, decide_eq_false hr, Bool.and_false]
        · simp [hr]
      simp only [hf, Bool.or_false]
    · have hne : (s.seq.pend.pause == some .starved) = false := beq_eq_false_iff_ne.mpr hpa
      show (s.seq.state == .playing && decide (0 < b) && decide (b ≤ s.seq.starvation) &&
        !(s.seq.pend.pause == some .starved)) = true
      simp [hp, hst.1, hst.2, hne]

/-! ### MARK COLLECTED -/

theorem markCollected_left (n : Nat) (log : List LogRecord) :
    uncollected (log.map (fun x => if x.number ≤ n then { x with collected := true } else x)) =
      (log.filter (fun x => !x.collected && decide (n < x.number))).length := by
  rw [uncollected, List.filter_map, List.length_map]
  congr 1
  refine List.filter_congr fun x _ => ?_
  by_cases hx : x.number ≤ n
  · simp [hx, Nat.not_lt.mpr hx]
  · simp [hx, Nat.lt_of_not_le hx]

/-- Settles O28, by the records left uncollected. -/
theorem markCollectedMarksAndArms : Obligations.mark_collected_marks_and_arms := by
  intro s r rest h hl n log left
  have hleft : uncollected log = left := markCollected_left n s.recorder.log
  have hm : (s.recorder.log.filter (fun x => decide (x.number ≤ n) && !x.collected)) =
      s.recorder.log.filter (fun x => !x.collected && decide (x.number ≤ n)) :=
    List.filter_congr fun x _ => Bool.and_comm _ _
  refine performs_answers h hl ?_
  simp only [markUpTo, markCollected, accept, Recorder.rearmed]
  rw [hm, ← hleft]
  rfl

end Sys2Proof.Machine
end

section
/-! PROOF. Booth time, licences, booth lines, the return lane, starts and the lane: the statements about events. -/

namespace Sys2Proof.Machine

/-! ### Media ticks (R26) -/

/-- Ticks below the last of the unit raise the tick count by one each. -/
theorem times_idleTick {s : State} (hb : boundaryDue s = true) : ∀ k, k < s.seq.ticksPerUnit - s.seq.tickCount →
    times idleTick k s = s.withSeq { s.seq with tickCount := s.seq.tickCount + k }
  | 0, _ => rfl
  | k + 1, hk => by
    have hb' : boundaryDue (s.withSeq s.seq.ticked) = true := hb
    have hk' : k < s.seq.ticksPerUnit - (s.seq.tickCount + 1) := by omega
    rw [times, idleTick_below hb (by omega), times_idleTick hb' k hk']
    simp only [State.withSeq_seq, Sequencer.ticked, Nat.add_assoc, Nat.add_comm 1 k]
    rfl

theorem times_succ (f : State → State) : ∀ (n : Nat) (s : State), times f (n + 1) s = f (times f n s)
  | 0, _ => rfl
  | n + 1, s => times_succ f n (f s)

/-- The ticks left in a unit are its boundary. -/
theorem times_idleTick_boundary {s : State} (hb : boundaryDue s = true) (h : s.seq.tickCount < s.seq.ticksPerUnit) :
    times idleTick (s.seq.ticksPerUnit - s.seq.tickCount) s = unitBoundaryTick s := by
  obtain ⟨n, hn⟩ : ∃ n, s.seq.ticksPerUnit - s.seq.tickCount = n + 1 := ⟨_, (Nat.sub_add_cancel (by omega)).symm⟩
  have hlast : s.seq.ticksPerUnit ≤ s.seq.tickCount + n + 1 := by omega
  rw [hn, times_succ, times_idleTick hb n (by omega)]
  exact idleTick_last (s := s.withSeq { s.seq with tickCount := s.seq.tickCount + n }) hb hlast

/-- Settles O2, by the ticks left in the unit. -/
theorem unitBoundaryIsTheTicksLeft : Obligations.unit_boundary_is_the_ticks_left := by
  refine ⟨fun s hp hc ht => ?_, fun s h => ?_⟩
  · have hb : boundaryDue s = true := by simp [boundaryDue, powered, hp, hc]
    have hu : exec .unitBoundary s = .next (unitBoundaryTick s) := by
      show Host.Outcome.next (if boundaryDue s then unitBoundaryTick s else s) = _
      rw [if_pos hb]
    refine ⟨times_idleTick hb, ?_, fun h1 => ?_⟩
    · rw [hu, times_idleTick_boundary hb ht]
    · rw [hu, idleTick_last hb (by omega)]
  · have hb : boundaryDue s = false := by rcases h with h | h <;> simp [boundaryDue, powered, h]
    refine ⟨idleTick_stopped hb, ?_⟩
    show Host.Outcome.next (if boundaryDue s then unitBoundaryTick s else s) = _
    rw [hb]
    rfl

/-! ### Release and lapse (R91, R93) -/

/-- A walk of the slots that changes at each place only that place, as the clock and the entry say. -/
theorem walk_slots {f : State → Nat → State} {g : BoothTime → Licence → Licence} (n : Nat)
    (h : ∀ s k, k < n → (f s k).clock = s.clock ∧ (∀ j, j ≠ k → bankGet (f s k).licences j = bankGet s.licences j) ∧
      bankGet (f s k).licences k = g s.clock (bankGet s.licences k)) (s : State) {i : Nat} (hi : i < n) :
    bankGet ((List.range n).foldl f s).licences i = g s.clock (bankGet s.licences i) := by
  have hw := walk_induct (f := f) (fun k t => t.clock = s.clock ∧ ∀ j, bankGet t.licences j =
      if j < k then g s.clock (bankGet s.licences j) else bankGet s.licences j) (s := s)
    ⟨rfl, fun j => by simp⟩ n (fun k t hk ⟨hc, hl⟩ => by
      obtain ⟨hc', hother, hself⟩ := h t k hk
      refine ⟨hc'.trans hc, fun j => ?_⟩
      by_cases hj : j = k
      · rw [hj, hself, hc, hl k, if_neg (Nat.lt_irrefl k), if_pos (Nat.lt_succ_self k)]
      · rw [hother j hj, hl j]
        have : j < k ↔ j < k + 1 := by omega
        simp only [this])
  rw [hw.2 i, if_pos hi]

/-- A slot in a release. -/
theorem releaseSlot_at (s : State) {k : Nat} (hk : k < 64) : bankGet (releaseSlot s k).licences k =
    if (bankGet s.licences k).state = .bound then
      (bankGet s.licences k).changed (releasedState s.clock.seconds (bankGet s.licences k))
    else bankGet s.licences k := by
  unfold releaseSlot
  dsimp only
  split
  · rw [raiseIf_licences]
    exact bankGet_set_same _ _ _ hk
  · rfl

/-- A slot in a lapse check. -/
theorem lapseSlot_at (s : State) {k : Nat} (hk : k < 64) : bankGet (lapseSlot s k).licences k =
    if (bankGet s.licences k).state = .loaded ∧ (bankGet s.licences k).windowEnd ≤ s.clock.seconds then
      (bankGet s.licences k).changed .lapsed
    else bankGet s.licences k := by
  unfold lapseSlot
  dsimp only
  split
  · exact bankGet_set_same _ _ _ hk
  · rfl

theorem releaseAll_at (s : State) {i : Nat} (hi : i < 64) : bankGet (releaseAll s).licences i =
    if (bankGet s.licences i).state = .bound then
      (bankGet s.licences i).changed (releasedState s.clock.seconds (bankGet s.licences i))
    else bankGet s.licences i :=
  walk_slots (g := fun c x => if x.state = .bound then x.changed (releasedState c.seconds x) else x) 64
    (fun s k hk => ⟨(releaseSlot_slots s k hk).1, (releaseSlot_slots s k hk).2.1, releaseSlot_at s hk⟩) s hi

theorem lapseCheck_at {s : State} (hs : s.clock.isSet = true) {i : Nat} (hi : i < 64) : bankGet (lapseCheck s).licences i =
    if (bankGet s.licences i).state = .loaded ∧ (bankGet s.licences i).windowEnd ≤ s.clock.seconds then
      (bankGet s.licences i).changed .lapsed
    else bankGet s.licences i := by
  rw [lapseCheck, if_pos hs]
  exact walk_slots (g := fun c x => if x.state = .loaded ∧ x.windowEnd ≤ c.seconds then x.changed .lapsed else x) 64
    (fun s k hk => ⟨(lapseSlot_slots s k).1, (lapseSlot_slots s k).2, lapseSlot_at s hk⟩) s hi

theorem lapseCheck_unset {s : State} (hs : s.clock.isSet = false) : lapseCheck s = s := by
  rw [lapseCheck, hs]
  rfl

/-- Settles O41, slot by slot. -/
theorem releaseAndLapseJudgeEachEntry : Obligations.release_and_lapse_judge_each_entry :=
  ⟨fun s _ hi => releaseAll_at s hi, fun _ _ hs hi => lapseCheck_at hs hi, fun _ hs => lapseCheck_unset hs⟩

/-! ### The divider (R94, R21) -/

theorem step_below {c : BoothTime} (h : c.fraction < 255) : c.step = { c with fraction := c.fraction + 1 } :=
  if_neg (Nat.not_le.mpr h)

theorem step_second {c : BoothTime} (h : c.fraction = 255) :
    c.step = ⟨c.isSet, if c.isSet then min 4294967295 (c.seconds + 1) else c.seconds, 0⟩ := by
  rw [BoothTime.step, if_pos (Nat.le_of_eq h.symm)]
  rfl

/-- The Sequencer after a divider step: in PAUSED the pause steps rise and the limit is tested (R21). -/
def Sequencer.stepped (q : Sequencer) : Sequencer :=
  if q.state = .paused then
    { q with
      pauseSteps := q.pauseSteps + 1
      pend := { q.pend with
        timeout := q.pend.timeout ||
          decide (q.pend.resume = false ∧ 0 < q.pauseLimit ∧ 256 * q.pauseLimit ≤ q.pauseSteps + 1) } }
  else q

theorem pauseStep_eq (s : State) : pauseStep s = s.withSeq s.seq.stepped := by
  unfold pauseStep Sequencer.stepped
  split
  · rename_i h
    rw [testLimit_eq]
    simp only [Sequencer.limitReached, h, beq_self_eq_true, Bool.true_and, Bool.decide_and, Bool.and_assoc]
    cases s.seq.pend.resume <;> rfl
  · rfl

theorem dividerTick_below {s : State} (hp : s.supplies.main = true) (h : s.clock.fraction < 255) :
    dividerTick s = (s.withClock { s.clock with fraction := s.clock.fraction + 1 }).withSeq s.seq.stepped := by
  have hn : ¬ 255 ≤ s.clock.fraction := Nat.not_le.mpr h
  simp only [dividerTick, State.withClock_supplies, hp, if_true, hn, if_false, step_below h, pauseStep_eq]
  rfl

theorem dividerTick_second {s : State} (hp : s.supplies.main = true) (h : s.clock.fraction = 255) :
    dividerTick s = boothSecondActs ((s.withClock s.clock.step).withSeq s.seq.stepped) := by
  simp only [dividerTick, State.withClock_supplies, hp, if_true, h, Nat.le_refl, pauseStep_eq]
  rfl

theorem dividerTick_unpowered {s : State} (hp : s.supplies.main = false) : dividerTick s = s.withClock s.clock.step := by
  simp only [dividerTick, State.withClock_supplies, hp, if_false, Bool.false_eq_true]

theorem exec_dividerStep {s : State} (h : dividerRuns s = true) : exec .dividerStep s = .next (dividerTick s) := by
  show Host.Outcome.next (if dividerRuns s then dividerTick s else s) = _
  rw [if_pos h]

theorem exec_boothSecond {s : State} (h : dividerRuns s = true) (hf : s.clock.fraction = 255) :
    exec .boothSecond s = .next (dividerTick s) := by
  show Host.Outcome.next (if boothSecondDue s then dividerTick s else s) = _
  rw [if_pos (by simp [boothSecondDue, h, hf])]

/-- A booth second: the lapse check, and in IDLE a PACE cell. -/
theorem boothSecondActs_seq_clock (s : State) :
    (boothSecondActs s).seq = s.seq ∧ (boothSecondActs s).clock = s.clock ∧
      (boothSecondActs s).licences = (lapseCheck s).licences ∧
      (boothSecondActs s).lane = if s.seq.state = .idle then (formPace (lapseCheck s)).lane else s.lane := by
  have hs : (lapseCheck s).seq = s.seq := (lapseCheck_only s).eq .seq (by decide)
  have hc : (lapseCheck s).clock = s.clock := (lapseCheck_only s).eq .clock (by decide)
  have hl : (lapseCheck s).lane = s.lane := (lapseCheck_only s).eq .lane (by decide)
  unfold boothSecondActs
  dsimp only
  rw [hs]
  split
  · exact ⟨hs, hc, rfl, rfl⟩
  · exact ⟨hs, hc, rfl, hl⟩

/-- Settles O40, by the two kinds of divider step and the supply. -/
theorem dividerStepsAndSeconds : Obligations.divider_steps_and_seconds := by
  intro s second limitMet stepped
  have hstepped : s.seq.stepped = stepped := rfl
  refine ⟨fun hp hf => ?_, fun hp hf => ?_, fun hp hb => ⟨fun hf => ?_, fun hf => ?_⟩⟩
  · have hr : dividerRuns s = true := by simp [dividerRuns, hp]
    refine ⟨by rw [exec_dividerStep hr, dividerTick_below hp hf, hstepped], fun hs ht hl => ?_⟩
    rw [exec_dividerStep hr]
    obtain ⟨hl1, hl2, hl3⟩ := hl
    show Host.Outcome.next (if pauseTimeoutDue s then dividerTick s else s) = _
    rw [if_pos (by simp [pauseTimeoutDue, powered, hp, hs, ht, hl1, hl2, hl3])]
  · have hr : dividerRuns s = true := by simp [dividerRuns, hp]
    have hsec := step_second hf
    obtain ⟨hseq, hclock, hlic, hlane⟩ := boothSecondActs_seq_clock ((s.withClock s.clock.step).withSeq s.seq.stepped)
    have hstate : ((s.withClock s.clock.step).withSeq s.seq.stepped).seq.state = s.seq.state := by
      show s.seq.stepped.state = _
      unfold Sequencer.stepped
      split <;> rfl
    refine ⟨dividerTick s, exec_boothSecond hr hf, exec_dividerStep hr, ?_⟩
    rw [dividerTick_second hp hf]
    refine ⟨hclock.trans hsec, hseq, fun i hi => ?_, fun hs => ?_, fun hs => ?_, ?_⟩
    · rw [hlic]
      cases hset : s.clock.isSet with
      | false =>
        rw [lapseCheck_unset (by rw [hsec]; exact hset)]
        simp
      | true =>
        rw [lapseCheck_at (by rw [hsec]; exact hset) hi]
        simp only [State.withSeq_licences, State.withClock_licences, State.withSeq_clock, State.withClock_clock, hsec,
          true_and, second]
        rfl
    · rw [hlane, if_pos (hstate.trans hs)]
      refine ⟨rfl, ?_⟩
      show (lapseCheck _).lane.sending = _
      rw [show (lapseCheck _).lane = _ from (lapseCheck_only _).eq .lane (by decide)]
      rfl
    · rw [hlane, if_neg (fun e => hs (hstate.symm.trans e))]
      rfl
    · exact (((only_withClock s _).trans (only_withSeq _ _)).trans (boothSecondActs_only _)).mono (by decide)
  · have hr : dividerRuns s = true := by simp [dividerRuns, hb]
    rw [exec_dividerStep hr, dividerTick_unpowered hp, step_below hf]
  · have hr : dividerRuns s = true := by simp [dividerRuns, hb]
    rw [exec_dividerStep hr, exec_boothSecond hr hf, dividerTick_unpowered hp, step_second hf]
    exact ⟨rfl, rfl⟩

end Sys2Proof.Machine
end

section
/-! PROOF. The booth lines, the return lane, the starts, the lane and the engine's take: the statements about them. -/

namespace Sys2Proof.Machine

/-- With main power present an event happens. -/
theorem next_powered {s : State} (hp : s.supplies.main = true) (t : State) :
    (Host.Outcome.next (if powered s then t else s) : Host.Outcome State Fault Refusal) = .next t := by
  rw [powered, if_pos hp]

/-! ### Line milliseconds (R141, R148) -/

/-- With nothing left due, a line millisecond settles nothing. -/
theorem settleDue_none {s : State} (ho : ∀ i, i < 8 → (bankGet s.lines.outputs i).spanDue = false)
    (hi : ∀ i, i < 8 → (bankGet s.lines.inputs i).edgeDue = false) (hl : s.link.downDue = false) : settleDue s = s := by
  have h1 : (List.range 8).foldl takeSpanEnd s = s :=
    walk_same 8 fun k hk => by simp [takeSpanEnd, ho k hk]
  have h2 : (List.range 8).foldl takeEdge s = s :=
    walk_same 8 fun k hk => by simp [takeEdge, hi k hk]
  rw [settleDue, h1, h2, takeLaneDown, hl]
  rfl

/-- A sample of a pin, as R148 gives it. -/
theorem sample_eq (pin : Bool) (x : InLine) : x.sample pin = { x with
    pinHigh := pin
    stable := if (pin != x.config.activeLow) = x.accepted then 0 else min (x.config.debounce + 1) (x.stable + 1) } := by
  unfold InLine.sample
  by_cases h : (pin != x.config.activeLow) = x.accepted <;> simp [InLine.sampled, h]

/-- Settles O42: with nothing left due the counts alone move. -/
theorem lineMillisecondCounts : Obligations.line_millisecond_counts := by
  intro s pins hp ho hi hl
  refine ⟨countLineMs pins s, ?_, ?_, rfl, rfl, fun i h => ⟨?_, ?_⟩⟩
  · rw [show exec (.lineMillisecond pins) s = .next (lineMillisecondTick pins s) from next_powered hp _,
      lineMillisecondTick, settleDue_none ho hi hl]
  · exact ((only_withLines s _).trans (only_withLink _ _)).mono (by decide)
  · exact bankGet_map OutLine.countDown s.lines.outputs i h
  · exact (bankGet_of 8 _ i h).trans (sample_eq _ _)

/-! ### Span ends (R144, R145) -/

/-- A span that has run out is taken. -/
theorem exec_spanEnd {s : State} {n : Nat} {y : OutLine} (hp : s.supplies.main = true)
    (ha : (bankGet s.lines.outputs n).activity ≠ .idle) (h0 : (bankGet s.lines.outputs n).spanRemaining = 0)
    (hy : (bankGet s.lines.outputs n).spanEnds s.lines.inputs = y) :
    exec (.spanEnd n) s = .next (s.withLines { s.lines with outputs := bankSet s.lines.outputs n y }) := by
  have hd : (bankGet s.lines.outputs n).spanDue = true := by simp [OutLine.spanDue, ha, h0]
  rw [show exec (.spanEnd n) s = .next (takeSpanEnd s n) from next_powered hp _, takeSpanEnd]
  simp only [hd, if_true, hy]

/-- Settles O43, by the activity and the mode. -/
theorem spanEndMovesLineOn : Obligations.span_end_moves_line_on := by
  intro s n hp hn x leave h0
  refine ⟨fun ha => exec_spanEnd hp (ha ▸ nofun) h0 ?_, fun ha hm => exec_spanEnd hp (ha ▸ nofun) h0 ?_,
    fun ha hm hc hc' => exec_spanEnd hp (ha ▸ nofun) h0 ?_, fun ha hm hc hc' => exec_spanEnd hp (ha ▸ nofun) h0 ?_,
    fun ha => ?_⟩
  · simp only [x] at ha
    simp [OutLine.spanEnds, ha, OutLine.turnOn, x]
  · simp only [x] at ha hm
    simp [OutLine.spanEnds, ha, hm, OutLine.rest, x]
  · have hd : addTo top8 x.pulsesDone 1 = x.pulsesDone + 1 := by
      simp only [addTo, top8]
      omega
    simp only [x] at ha hm hd hc hc'
    simp [OutLine.spanEnds, ha, hm, hd, hc, hc', OutLine.rest, x]
  · have hd : addTo top8 x.pulsesDone 1 = x.pulsesDone + 1 := by
      simp only [addTo, top8]
      omega
    have hne : ¬ (x.config.count ≤ 254 ∧ x.pulsesDone + 1 = x.config.count) := by omega
    simp only [x] at ha hm hd hne
    simp only [OutLine.spanEnds, ha, hm, hd, hne, if_true, if_false]
    rfl
  · have he : x.spanEnds s.lines.inputs = x.trainPulse s.lines.inputs := by simp only [OutLine.spanEnds, ha]
    rw [OutLine.trainPulse] at he
    split at he
    · rename_i hg
      rw [if_pos hg]
      exact exec_spanEnd hp (ha ▸ nofun) h0 he
    · rename_i hg
      rw [if_neg hg]
      exact exec_spanEnd hp (ha ▸ nofun) h0 he

/-! ### Accepted edges (R149 to R151) -/

/-- The held inputs set stands, and with an input held no go and no resume becomes pending (R14, R15). -/
def Sequencer.StartsNothing (q r : Sequencer) : Prop :=
  r.held = q.held ∧ (q.held ≠ 0 → q.pend.go = false → q.pend.resume = false →
    r.pend.go = false ∧ r.pend.resume = false)

theorem Sequencer.StartsNothing.refl (q : Sequencer) : q.StartsNothing q := ⟨rfl, fun _ hg hr => ⟨hg, hr⟩⟩

theorem ite_startsNothing {q : Sequencer} {s t : State} (c : Prop) [Decidable c] {o p : ReplyOutcome}
    (h : q.StartsNothing s.seq) (k : q.StartsNothing t.seq) :
    q.StartsNothing (if c then (o, s) else (p, t)).2.seq := by
  split
  · exact h
  · exact k

theorem takeGo_startsNothing (s : State) : s.seq.StartsNothing (takeGo s).2.seq := by
  unfold takeGo
  split
  · split
    · exact .refl _
    · rename_i hh
      exact ⟨rfl, fun h => absurd h hh⟩
  · split
    · exact .refl _
    · rename_i hh
      exact ⟨rfl, fun h => absurd h hh⟩
  all_goals exact .refl _

theorem takePause_startsNothing (s : State) : s.seq.StartsNothing (takePause s).2.seq := by
  unfold takePause
  split
  · exact ⟨rfl, fun _ hg _ => ⟨hg, rfl⟩⟩
  · exact ⟨rfl, fun _ hg _ => ⟨hg, rfl⟩⟩
  · split
    · rw [State.withSeq_seq, testLimit_keeps]
      exact ⟨rfl, fun _ hg _ => ⟨hg, rfl⟩⟩
    · exact .refl _
  all_goals exact .refl _

theorem takeResume_startsNothing (s : State) : s.seq.StartsNothing (takeResume s).2.seq := by
  have cleared : ∀ t : State,
      t.seq.StartsNothing (t.withSeq { t.seq with pend := { t.seq.pend with pause := none } }).seq :=
    fun t => ⟨rfl, fun _ hg hr => ⟨hg, hr⟩⟩
  unfold takeResume
  split
  · split
    · exact .refl _
    · rename_i hh
      exact ⟨rfl, fun h => absurd h hh⟩
  · exact ite_startsNothing _ (.refl _) (ite_startsNothing _ (.refl _) (cleared s))
  · exact ite_startsNothing _ (.refl _) (ite_startsNothing _ (.refl _) (cleared s))
  all_goals exact .refl _

theorem takeStop_startsNothing (s : State) : s.seq.StartsNothing (takeStop s).2.seq := by
  unfold takeStop
  split
  · exact .refl _
  · exact ⟨rfl, fun _ hg hr => ⟨hg, hr⟩⟩

theorem inputAction_startsNothing (n : Nat) (rising : Bool) (a : InAction) (s : State) :
    s.seq.StartsNothing (inputAction n rising a s).seq := by
  cases a with
  | none | report | flag => exact .refl _
  | go => exact (controlAction_seq _ _).symm ▸ takeGo_startsNothing s
  | pause => exact (controlAction_seq _ _).symm ▸ takePause_startsNothing s
  | resume => exact (controlAction_seq _ _).symm ▸ takeResume_startsNothing s
  | stop => exact (controlAction_seq _ _).symm ▸ takeStop_startsNothing s

/-- The accepted edge before its capture and action: the level and the held inputs set (R149). -/
def edgeTaken (n : Nat) (s : State) : State :=
  let x := bankGet s.lines.inputs n
  let s1 := setInput n { x with accepted := x.sampled, stable := 0 } s
  if x.config.held then (if x.sampled then joinHeld n s1 else leaveHeld n s1) else s1

theorem acceptEdge_eq (n : Nat) (s : State) : acceptEdge n s =
    (let x := bankGet s.lines.inputs n
     if x.config.edge.selects x.sampled then
       inputAction n x.sampled x.config.action
         (setInput n ((bankGet (edgeTaken n s).lines.inputs n).captured (captureNow x.sampled x.sampled (edgeTaken n s)))
           (edgeTaken n s))
     else edgeTaken n s) := rfl

/-- The level accepted and the held inputs set (R148, R149). -/
theorem edgeTaken_eq {n : Nat} (hn : n < 8) (s : State) :
    let x := bankGet s.lines.inputs n
    let t := edgeTaken n s
    Only [.lines, .seq] s t ∧
    t.lines = { s.lines with inputs := bankSet s.lines.inputs n { x with accepted := x.sampled, stable := 0 } } ∧
    inHeld n t = (if x.config.held then x.sampled else inHeld n s) ∧ t.seq.state = s.seq.state ∧ t.seq.seg = s.seq.seg ∧
    t.seq.offset = s.seq.offset ∧
    (x.config.held = true → x.sampled = true → t.seq.pend.go = false ∧ t.seq.pend.resume = false) := by
  intro x t
  unfold t edgeTaken
  dsimp only
  have ho := setInput_only n { bankGet s.lines.inputs n with
    accepted := (bankGet s.lines.inputs n).sampled
    stable := 0 } s
  generalize hu : setInput n _ s = u at ho
  have hlines : u.lines = { s.lines with
      inputs := bankSet s.lines.inputs n { x with accepted := x.sampled, stable := 0 } } := by
    rw [← hu]
    rfl
  have hseq : u.seq = s.seq := ho.eq .seq (by decide)
  split
  · rename_i hh
    split
    · rename_i hsam
      obtain ⟨hgo, hres, -, -, hstate, hseg, hoff, hl⟩ := joinHeld_seq n u
      refine ⟨(ho.trans (joinHeld_only n u)).mono (by decide), hl.trans hlines, ?_, hstate.trans (by rw [hseq]),
        hseg.trans (by rw [hseq]), hoff.trans (by rw [hseq]), fun _ _ => ⟨hgo, hres⟩⟩
      rw [joinHeld_held n n hn]
      simp only [decide_true, Bool.true_or]
      exact hsam.symm
    · rename_i hsam
      refine ⟨(ho.trans (leaveHeld_only n u)).mono (by decide), hlines, ?_, show u.seq.state = _ by rw [hseq],
        show u.seq.seg = _ by rw [hseq], show u.seq.offset = _ by rw [hseq], fun _ h => absurd h hsam⟩
      rw [leaveHeld_held n n hn]
      simp only [decide_true, Bool.not_true, Bool.and_false]
      exact (Bool.eq_false_iff.mpr hsam).symm
  · rename_i hh
    refine ⟨ho.mono (by decide), hlines, ?_, by rw [hseq], by rw [hseq], by rw [hseq], fun h => absurd h hh⟩
    rw [inHeld, hseq]
    rfl

/-- Settles O44, by the parts of R149 in their order: level and held inputs set, capture, action. -/
theorem inputEdgeAccepted : Obligations.input_edge_accepted := by
  intro s n hp hn x hd
  have hexec : exec (.inputEdge n) s = .next (acceptEdge n s) := by
    rw [show exec (.inputEdge n) s = .next (takeEdge s n) from next_powered hp _, takeEdge, if_pos hd]
  obtain ⟨ho, hlines, hheld, hstate, hseg, hoff, hpend⟩ := edgeTaken_eq hn s
  have hx : bankGet (edgeTaken n s).lines.inputs n = { x with accepted := x.sampled, stable := 0 } := by
    rw [hlines]
    exact bankGet_set_same _ _ _ hn
  refine ⟨acceptEdge n s, hexec, acceptEdge_only n s, ?_⟩
  rw [acceptEdge_eq]
  dsimp only
  split
  · have hcap : captureNow x.sampled x.sampled (edgeTaken n s) =
        ⟨x.sampled, x.sampled, s.seq.state, if s.seq.state = .idle then 0 else s.recorder.record.number, s.seq.seg,
          s.seq.offset, boothNow s⟩ := by
      have hr : (edgeTaken n s).recorder = s.recorder := ho.eq .recorder (by decide)
      have hc : (edgeTaken n s).clock = s.clock := ho.eq .clock (by decide)
      rw [captureNow, showingOrIdle, boothNow, hstate, hseg, hoff, hr, hc]
      rfl
    rw [hx, hcap]
    generalize hy : InLine.captured _ _ = y
    have hl : (inputAction n x.sampled x.config.action (setInput n y (edgeTaken n s))).lines =
        { s.lines with inputs := bankSet (edgeTaken n s).lines.inputs n y } := by
      rw [show (inputAction _ _ _ _).lines = _ from (inputAction_only n _ _ _).eq .lines (by decide)]
      show { (edgeTaken n s).lines with inputs := bankSet (edgeTaken n s).lines.inputs n y } = _
      rw [hlines]
    obtain ⟨hheld', hstart⟩ := inputAction_startsNothing n x.sampled x.config.action (setInput n y (edgeTaken n s))
    refine ⟨by rw [hl], fun m hm => ?_, ?_, fun h1 h2 => ?_, ?_⟩
    · rw [hl]
      show bankGet (bankSet (edgeTaken n s).lines.inputs n y) m = _
      rw [bankGet_set_other _ _ _ _ (Ne.symm hm), hlines]
      exact bankGet_set_other _ _ _ _ (Ne.symm hm)
    · rw [inHeld, hheld']
      exact hheld
    · have hin : (edgeTaken n s).seq.held.getLsbD n = true := (hheld.trans (if_pos h1)).trans h2
      have hne : (edgeTaken n s).seq.held ≠ 0 := fun e => by
        rw [e] at hin
        simp at hin
      exact hstart hne (hpend h1 h2).1 (hpend h1 h2).2
    · rw [hl]
      exact (bankGet_set_same _ _ _ hn).trans hy.symm
  · refine ⟨by rw [hlines], fun m hm => ?_, hheld, hpend, hx⟩
    rw [hlines]
    exact bankGet_set_other _ _ _ _ (Ne.symm hm)

/-! ### The return lane (R190) -/

/-- Settles O47, by the arbiter's order. -/
theorem returnLaneSendsInOrder : Obligations.return_lane_sends_in_order := by
  intro s hp
  have free : s.lane.sending = none → exec .cellSendStart s = .next (sendNext s) := fun hf => by
    show Host.Outcome.next (if powered s && laneFree s then sendNext s else s) = _
    rw [if_pos (by simp [powered, laneFree, hp, hf])]
  refine ⟨fun x hf hx => ?_, fun r rest hf hx hr => ?_, fun r rest hf hx hr hq => ?_, fun hf hx hr hq => ?_,
    fun c hc => ⟨?_, ?_⟩⟩
  · rw [free hf, sendNext, hx]
    rfl
  · rw [free hf, sendNext, hx, hr]
    simp only [sendReply, ReturnLane.begin, hx]
    rfl
  · refine ⟨sendReport r rest s, ?_, rfl, rfl, ?_⟩
    · rw [free hf, sendNext, hx, hr, hq]
    have hrep : (sendReport r rest s).reports = reportLeaves rest s := rfl
    rw [hrep, reportLeaves]
    have ho : Only [.lane, .reports] s (sendReport r rest s) :=
      ((only_withReports s _).trans (only_withLane _ _)).mono (by decide)
    split
    · rename_i hl
      exact ⟨rfl, rfl, fun h0 => absurd h0 (Nat.ne_of_gt hl), fun _ => ⟨_, rfl, rfl, rfl, rfl, rfl, rfl⟩, ho⟩
    · rename_i hl
      exact ⟨rfl, Nat.eq_zero_of_not_pos hl, fun _ => rfl, fun h => absurd h hl, ho⟩
  · rw [free hf, sendNext, hx, hr, hq]
  · show Host.Outcome.next (if powered s && laneFree s then sendNext s else s) = _
    rw [if_neg (by simp [laneFree, hc])]
  · exact next_powered hp _

/-! ### The lane and the requests that arrive (R41 to R43, R172) -/

/-- Settles O49, by the valid cell, the lane timer and the failed cell. -/
theorem laneFollowsValidCells : Obligations.lane_follows_valid_cells := by
  refine ⟨fun s c hp hv hk hd => ?_, fun s hp hu ht => ?_, fun s c hp hv => ⟨headerError s, ?_, ?_⟩⟩
  · rw [show exec (.fill c) s = .next (receiveCell c s) from next_powered hp _, receiveCell, if_pos hv, handleCell, hk]
    show Host.Outcome.next (laneValid s) = _
    have h0 : takeLaneDown s = s := by
      rw [takeLaneDown, hd]
      rfl
    rw [laneValid, h0]
    dsimp only
    split
    · rename_i hu
      rw [← hu]
    · rfl
  · rw [show exec .laneDown s = .next (takeLaneDown s) from next_powered hp _, takeLaneDown, if_pos]
    simp [LinkReceiver.downDue, hu, ht]
  · rw [show exec (.invalidCell c) s = .next (receiveCell c s) from next_powered hp _, receiveCell, hv]
    rfl
  · refine ⟨headerError_only s, ?_⟩
    unfold headerError
    dsimp only
    split
    · exact ⟨rfl, rfl, rfl, rfl, rfl⟩
    · rename_i ha
      exact ⟨rfl, rfl, Bool.eq_false_iff.mpr ha, rfl, rfl⟩

theorem field_one (p : List Byte) (i : Nat) : field p i 1 = byteAt p i := by
  unfold field byteAt
  rcases Nat.lt_or_ge i p.length with h | h
  · rw [List.drop_eq_getElem_cons h, List.getD_eq_getElem _ _ h]
    simp only [List.take_succ_cons, List.take_zero, fromBe, List.foldl_cons, List.foldl_nil, Nat.zero_mul, Nat.zero_add]
  · rw [List.drop_eq_nil_of_le h, List.getD_eq_default _ _ h]
    rfl

theorem arriveRequest_mgmt (r : Request) (s : State) : arriveRequest r s = s.withMgmt
    (if s.mgmt.queue.length < 8 then { s.mgmt with queue := s.mgmt.queue ++ [r] }
    else if s.mgmt.replies.length < 16 then
      { s.mgmt with replies := s.mgmt.replies ++ [⟨r.tag, r.kind, .queueFull, []⟩] }
    else { s.mgmt with lost := min 65535 (s.mgmt.lost + 1) }) := by
  unfold arriveRequest
  dsimp only
  by_cases hq : s.mgmt.queue.length < Config.requestPlaces
  · rw [if_pos hq, if_pos (show s.mgmt.queue.length < 8 from hq)]
  · rw [if_neg hq, if_neg (show ¬ s.mgmt.queue.length < 8 from hq)]
    by_cases hr : s.mgmt.replies.length < Config.replyPlaces
    · rw [if_pos hr, if_pos (show s.mgmt.replies.length < 16 from hr)]
    · rw [if_neg hr, if_neg (show ¬ s.mgmt.replies.length < 16 from hr)]
      rfl

/-- Settles O52, by where the request finds a place. -/
theorem manageRequestQueuedAnsweredOrLost : Obligations.manage_request_queued_answered_or_lost := by
  intro s c hp hv hk r
  have hr : requestOf c.payload = r := by rw [requestOf, field_one]
  obtain ⟨htimer, hup, -⟩ := laneValid_link s
  have hm : (laneValid s).mgmt = s.mgmt := (laneValid_only s).eq .mgmt (by decide)
  refine ⟨arriveRequest r (laneValid s), ?_, ?_, ?_, ?_, ?_⟩
  · rw [show exec (.manage c) s = .next (receiveCell c s) from next_powered hp _, receiveCell, if_pos hv, handleCell, hk]
    show Host.Outcome.next (arriveRequest (requestOf c.payload) (laneValid s)) = _
    rw [hr]
  · rw [arriveRequest_mgmt]
    exact ((laneValid_only s).trans (only_withMgmt _ _)).mono (by decide)
  · rw [arriveRequest_mgmt]
    exact hup
  · rw [arriveRequest_mgmt]
    exact htimer
  · rw [arriveRequest_mgmt, State.withMgmt_mgmt, hm]

/-! ### The reset state -/

/-- Settles O53, invariant by invariant. -/
theorem resetMeetsInvariants : Obligations.reset_meets_invariants := by
  have hz : ∀ k, k < 4 → queueOf State.reset k = [] := fun k hk => reset_queues hk
  have hw : State.reset.sound.writeIndex < Config.ringLength := by decide
  have hd : DurationsHold State.reset.showList := fun e he => by
    have e0 : e = Entry.emptied 0 := by simpa [State.reset] using he
    rw [e0]
    exact Nat.le_refl 1
  refine ⟨⟨fun k hk => by rw [hz k hk]; exact Nat.zero_le _, ?_, ?_, ?_, ?_, ?_, ?_⟩, ?_, fullMask_legal _ _,
    ⟨reset_rings_wf, hw⟩, reset_ordered, reset_licences,
    sequencerHolds_of_rests hd ⟨rfl, rfl, rfl, rfl, rfl, nofun⟩⟩
  case refine_7 => constructor <;> decide
  all_goals decide

end Sys2Proof.Machine
end

section
/-! PROOF. What operations add to the report queue (R186), and with it the starts (R191) and the management reset (R185). -/

namespace Sys2Proof.Machine

/-! ### Reports added -/

/-- At most k reports, each with P, joined the end of the report queue; none lost was forgotten, and with room for k none
was lost (R186, R189). -/
structure Raised (P : Report → Prop) (k : Nat) (u v : ReportUnit) : Prop where
  mask : v.mask = u.mask
  queue : ∃ new, v.queue = u.queue ++ new ∧ new.length ≤ k ∧ ∀ x ∈ new, P x
  lost : u.queue.length + k ≤ Config.reportPlaces → v.lost = u.lost
  rises : u.lost ≤ top32 → u.lost ≤ v.lost ∧ v.lost ≤ top32

theorem Raised.refl (P : Report → Prop) (u : ReportUnit) : Raised P 0 u u :=
  ⟨rfl, ⟨[], (List.append_nil _).symm, Nat.le_refl 0, nofun⟩, fun _ => rfl, fun h => ⟨Nat.le_refl _, h⟩⟩

theorem Raised.mono {P Q : Report → Prop} {j k : Nat} {u v : ReportUnit} (h : Raised P j u v) (hPQ : ∀ x, P x → Q x)
    (hk : j ≤ k) : Raised Q k u v := by
  obtain ⟨new, hq, hn, hP⟩ := h.queue
  exact ⟨h.mask, ⟨new, hq, hn.trans hk, fun x hx => hPQ x (hP x hx)⟩, fun hr => h.lost (by omega), h.rises⟩

/-- Nothing raised is at most k reports raised. -/
theorem raised_none (P : Report → Prop) (k : Nat) (u : ReportUnit) : Raised P k u u :=
  (Raised.refl P u).mono (fun _ => id) (Nat.zero_le k)

theorem Raised.trans {P : Report → Prop} {j k : Nat} {u v w : ReportUnit} (h : Raised P j u v) (h' : Raised P k v w) :
    Raised P (j + k) u w := by
  obtain ⟨new, hq, hn, hP⟩ := h.queue
  obtain ⟨new', hq', hn', hP'⟩ := h'.queue
  refine ⟨h'.mask.trans h.mask, ⟨new ++ new', ?_, ?_, fun x hx => ?_⟩, fun hr => ?_, fun ht => ?_⟩
  · rw [hq', hq, List.append_assoc]
  · rw [List.length_append]
    omega
  · exact (List.mem_append.mp hx).elim (hP x) (hP' x)
  · refine (h'.lost ?_).trans (h.lost (by omega))
    rw [hq, List.length_append]
    omega
  · obtain ⟨hv, hv'⟩ := h.rises ht
    obtain ⟨hw, hw'⟩ := h'.rises hv'
    exact ⟨hv.trans hw, hw'⟩

/-- Where a report is not masked and the queue has a place it joins the end (R186). -/
theorem offer_joins {u : ReportUnit} {r : Report} (hm : u.mask.getLsbD r.kind.code = true)
    (hq : u.queue.length < Config.reportPlaces) : u.offer r = { u with queue := u.queue ++ [r] } := by
  rw [ReportUnit.offer, hm, if_neg (by decide), if_neg (Nat.not_le.mpr hq)]

theorem offer_raised {P : Report → Prop} {r : Report} (u : ReportUnit) (h : P r) : Raised P 1 u (u.offer r) := by
  unfold ReportUnit.offer
  split
  · exact raised_none P 1 u
  · split
    · rename_i hq
      exact ⟨rfl, ⟨[], (List.append_nil _).symm, Nat.zero_le 1, nofun⟩, fun hr => absurd hr (by omega),
        fun ht => ⟨Nat.le_min.mpr ⟨ht, Nat.le_succ _⟩, Nat.min_le_left _ _⟩⟩
    · exact ⟨rfl, ⟨[r], rfl, Nat.le_refl 1, fun x hx => by rwa [List.mem_singleton.mp hx]⟩, fun _ => rfl,
        fun ht => ⟨Nat.le_refl _, ht⟩⟩

theorem raiseIf_raised {P : Report → Prop} (c : Bool) (k : ReportKind) (a b : Nat) (s : State)
    (h : P (stamped k (showingNow s) a b s)) : Raised P 1 s.reports (raiseIf c k a b s).reports := by
  unfold raiseIf
  split
  · exact offer_raised _ h
  · exact raised_none P 1 _

/-- A LICENCE_STATE report at the position of state s (R97). -/
def LicenceStateAt (s : State) (x : Report) : Prop :=
  x.kind = .licenceState ∧ x.seg = s.seq.seg ∧ x.offset = s.seq.offset

theorem releaseSlot_raised (s : State) (i : Nat) :
    Raised (LicenceStateAt s) 1 s.reports (releaseSlot s i).reports := by
  have changes : ∀ (c : Bool) (k : Nat) (l : Vector Licence 64),
      Raised (LicenceStateAt s) 1 s.reports (raiseIf c .licenceState i k (s.withLicences l)).reports := fun c k l =>
    raiseIf_raised c _ i k (s.withLicences l) ⟨rfl, rfl, rfl⟩
  unfold releaseSlot
  dsimp only
  split
  · exact changes _ _ _
  · exact raised_none _ 1 _

theorem lapseSlot_raised (s : State) (i : Nat) : Raised (LicenceStateAt s) 1 s.reports (lapseSlot s i).reports := by
  unfold lapseSlot
  dsimp only
  split
  · exact offer_raised (P := LicenceStateAt s) _ ⟨rfl, rfl, rfl⟩
  · exact raised_none _ 1 _

/-- A walk of the slots that raises LICENCE_STATE at most once a slot. -/
theorem walk_raised {f : State → Nat → State} (n : Nat) (ho : ∀ s i, Only [.licences, .reports] s (f s i))
    (h : ∀ s i, Raised (LicenceStateAt s) 1 s.reports (f s i).reports) (s : State) :
    Raised (LicenceStateAt s) n s.reports ((List.range n).foldl f s).reports := by
  refine (walk_induct (f := f) (fun k t => t.seq = s.seq ∧ Raised (LicenceStateAt s) k s.reports t.reports)
    ⟨rfl, .refl _ _⟩ n fun k t _ ⟨hq, hr⟩ => ⟨((ho t k).eq .seq (by decide)).trans hq, hr.trans ?_⟩).2
  refine (h t k).mono (fun x hx => ?_) (Nat.le_refl 1)
  rw [LicenceStateAt, hq] at hx
  exact hx

theorem releaseAll_raised (s : State) : Raised (LicenceStateAt s) 64 s.reports (releaseAll s).reports :=
  walk_raised 64 releaseSlot_only releaseSlot_raised s

theorem lapseCheck_raised (s : State) : Raised (LicenceStateAt s) 64 s.reports (lapseCheck s).reports := by
  unfold lapseCheck
  split
  · exact walk_raised 64 lapseSlot_only lapseSlot_raised s
  · exact raised_none _ 64 _

/-- A report of one of the kinds a log append raises (R167, R169). -/
def OfLog (x : Report) : Prop := x.kind ∈ [ReportKind.logHalf, .logFull, .logOverwrite]

theorem halfAndFull_raised (half full : Bool) (n m k j : Nat) (x : Recorder) (s : State) : Raised OfLog 2 s.reports
    (raiseIf full .logFull n m (raiseIf half .logHalf k j (s.withRecorder x))).reports := by
  have hh := raiseIf_raised (P := OfLog) half .logHalf k j (s.withRecorder x) (by simp [OfLog, stamped])
  exact hh.trans (raiseIf_raised (P := OfLog) full .logFull n m _ (by simp [OfLog, stamped]))

theorem appendLog_raised (x : LogRecord) (s : State) : Raised OfLog 3 s.reports (appendLog x s).reports := by
  have overwrites : ∀ (n d : Nat) (r : Recorder),
      Raised OfLog 1 s.reports (raise .logOverwrite n d (s.withRecorder r)).reports := fun n d r =>
    offer_raised (P := OfLog) _ (by simp [OfLog, stamped])
  unfold appendLog
  cases s.recorder.losing with
  | none => exact (raised_none OfLog 1 s.reports).trans (halfAndFull_raised _ _ _ _ _ _ _ s)
  | some old => exact (overwrites _ _ _).trans (halfAndFull_raised _ _ _ _ _ _ _ _)

/-- A report of one of the kinds a close raises (R165, R167, R169). -/
def OfClose (x : Report) : Prop := x.kind = .showingEnd ∨ OfLog x

/-- The close of an OPEN record raises what its log append raises, then SHOWING_END with the cause (R165). -/
theorem closeShowing_reports (c : EndCause) (n : Nat) (s : State) (h : s.recorder.status = .opened) :
    ∃ (u : ReportUnit) (x : Report), Raised OfLog 3 s.reports u ∧ (closeShowing c n s).reports = u.offer x ∧
      (x.kind, x.showing, x.detail1, x.detail2) =
        (.showingEnd, s.recorder.record.number, c.code, if s.recorder.record.counted then 1 else 0) := by
  let r := closedRecord s.showList c n (boothNow s) s.recorder.record
  let t := s.withRecorder { s.recorder with status := .closed, record := r }
  have raised : ∀ (k : ReportKind) (l a b : Nat) (v : State),
      (raiseAs k l a b v).reports = v.reports.offer (stamped k l a b v) := fun _ _ _ _ _ => rfl
  exact ⟨_, _, appendLog_raised (condense r c) t, (congrArg State.reports (if_pos h)).trans (raised _ _ _ _ _), rfl⟩

theorem closeShowing_raised (c : EndCause) (n : Nat) (s : State) :
    Raised OfClose 4 s.reports (closeShowing c n s).reports := by
  by_cases h : s.recorder.status = .opened
  · obtain ⟨u, x, hu, hx, hk⟩ := closeShowing_reports c n s h
    rw [hx]
    exact (hu.mono (fun _ => .inr) (Nat.le_refl 3)).trans (offer_raised u (.inl (congrArg Prod.fst hk)))
  · rw [closeShowing_not_opened c n s h]
    exact raised_none _ 4 _

/-- With no entry BOUND a release changes nothing. -/
theorem releaseAll_none {s : State} (h : Unbound s.licences) : releaseAll s = s :=
  walk_same 64 fun k hk => by
    rw [releaseSlot, if_neg (h _ (bankGet_mem _ k hk))]

/-! ### What a start leaves -/

/-- A line at rest keeps its configuration, an input the pin given (R157). -/
theorem restLines_at (pin : Nat → Bool) (ms : Nat) (x : LineController) {i : Nat} (h : i < 8) :
    bankGet (restLines pin ms x).outputs i = ⟨(bankGet x.outputs i).config, false, .idle, 0, 0, 0⟩ ∧
      bankGet (restLines pin ms x).inputs i = ⟨(bankGet x.inputs i).config, pin i, false, 0, none, false, false⟩ :=
  ⟨bankGet_map _ _ i h, bankGet_of 8 _ i h⟩

/-- What every start and the loss of main power keep of a state: the retained tables and the line configurations, the
Sequencer IDLE under its limits (R191). -/
structure KeepsStore (s t : State) : Prop where
  showList : t.showList = s.showList
  cues : t.cues = s.cues
  clock : t.clock = s.clock
  sound : t.sound = s.sound.restart
  lines : t.lines = restLines (fun _ => false) 0 s.lines
  seq : t.seq = s.seq.restarted
  link : t.link = State.reset.link
  lane : t.lane = State.reset.lane

theorem volatileReset_keepsStore (power : Supplies) (s : State) : KeepsStore s (volatileReset power s) :=
  ⟨rfl, rfl, rfl, rfl, rfl, rfl, rfl, rfl⟩

theorem warmStart_keepsStore (s : State) : KeepsStore s (warmStart s) :=
  have h := warmStart_only s
  ⟨h.eq .showList (by decide), h.eq .cues (by decide), h.eq .clock (by decide), h.eq .sound (by decide),
    h.eq .lines (by decide), h.eq .seq (by decide), h.eq .link (by decide), h.eq .lane (by decide)⟩

theorem KeepsStore.line {s t : State} (h : KeepsStore s t) {i : Nat} (hi : i < 8) :
    (bankGet t.lines.outputs i).config = (bankGet s.lines.outputs i).config ∧
      (bankGet t.lines.outputs i).active = false ∧
      (bankGet t.lines.inputs i).config = (bankGet s.lines.inputs i).config := by
  obtain ⟨ho, hin⟩ := restLines_at (fun _ => false) 0 s.lines hi
  rw [h.lines, ho, hin]
  exact ⟨rfl, rfl, rfl⟩

/-- START_WARM is the one report of a warm start at first, with the showing that was OPEN (R191). -/
theorem startWarm_queue (s : State) (hq : s.reports = ⟨[], ReportUnit.fullMask, 0⟩) :
    ∃ x, (startWarm s).reports.queue = [x] ∧ x.kind = .startWarm ∧
      x.detail1 = (if s.recorder.status = .opened then 1 else 0) ∧
      x.detail2 = (if s.recorder.status = .opened then s.recorder.record.number else 0) := by
  have raised : ∀ a b, (raise .startWarm a b s).reports.queue = [stamped .startWarm (showingNow s) a b s] := fun a b => by
    have ho : (raise .startWarm a b s).reports = s.reports.offer (stamped .startWarm (showingNow s) a b s) := rfl
    rw [ho, hq, offer_joins (by simp only [stamped]; decide) (by simp; decide)]
    rfl
  unfold startWarm
  split
  · exact ⟨_, raised _ _, rfl, rfl, rfl⟩
  · exact ⟨_, raised _ _, rfl, rfl, rfl⟩

/-- What follows START_WARM in a warm start only adds to the report queue. -/
theorem warmStart_raised (s : State) :
    ∃ new, (warmStart s).reports.queue = (startWarm (volatileReset ⟨true, true, true⟩ s)).reports.queue ++ new := by
  let t := startWarm (volatileReset ⟨true, true, true⟩ s)
  obtain ⟨a, ha, -, -⟩ := (releaseAll_raised t).queue
  obtain ⟨b, hb, -, -⟩ := (closeShowing_raised .interrupted 0 (releaseAll t)).queue
  obtain ⟨c, hc, -, -⟩ := (lapseCheck_raised (closeShowing .interrupted 0 (releaseAll t))).queue
  exact ⟨a ++ b ++ c, by rw [warmStart, hc, hb, ha, List.append_assoc, List.append_assoc, List.append_assoc]⟩

theorem warmStart_unbound (s : State) : Unbound (warmStart s).licences :=
  lapseCheck_unbound (by
    rw [(closeShowing_only _ _ _).eq .licences (by decide)]
    exact releaseAll_unbound _)

/-- A warm start closes an OPEN showing INTERRUPTED and leaves every other record (R166, R192). -/
theorem warmStart_recorder (s : State) :
    (s.recorder.status = .opened → (warmStart s).recorder.status = .closed ∧
      (warmStart s).recorder.record.endCause = some .interrupted) ∧
    (s.recorder.status ≠ .opened → (warmStart s).recorder = s.recorder) := by
  let t := releaseAll (startWarm (volatileReset ⟨true, true, true⟩ s))
  have ht : t.recorder = s.recorder :=
    ((releaseAll_only _).eq .recorder (by decide)).trans ((startWarm_only _).eq .recorder (by decide))
  have hl : (warmStart s).recorder = (closeShowing .interrupted 0 t).recorder :=
    (lapseCheck_only (closeShowing .interrupted 0 t)).eq .recorder (by decide)
  rw [hl]
  refine ⟨fun h => ?_, fun h => ?_⟩
  · obtain ⟨hst, hc, -, -⟩ := closeShowing_opened .interrupted 0 t (by rw [ht]; exact h)
    exact ⟨hst, hc⟩
  · rw [closeShowing_not_opened _ _ _ (by rw [ht]; exact h), ht]

theorem execWarmStart_of (s : State) (h : s.supplies.retainedValid = true) :
    exec .warmStart s = .next (warmStart s) := by
  show execWarmStart s = _
  rw [execWarmStart, if_pos h]

/-- Settles O48, by what each start and loss changes after the volatile state is set. -/
theorem startsAndSupplyLosses : Obligations.starts_and_supply_losses := by
  refine ⟨fun s h => ⟨?_, ?_, ?_⟩, fun s h => ?_, ?_, fun s h => ?_⟩
  · show execColdStart s = _
    rw [execColdStart, h]
    rfl
  · rfl
  · rfl
  · have hk := warmStart_keepsStore s
    obtain ⟨x, hx, hkind, hd1, hd2⟩ := startWarm_queue (volatileReset ⟨true, true, true⟩ s) rfl
    obtain ⟨new, hnew⟩ := warmStart_raised s
    obtain ⟨hopen, hclosed⟩ := warmStart_recorder s
    refine ⟨_, execWarmStart_of s h, (warmStart_only s).eq .supplies (by decide), congrArg Sequencer.state hk.seq,
      congrArg Sequencer.ctx hk.seq, congrArg Sequencer.flags hk.seq, (congrArg Sequencer.pauseLimit hk.seq).trans rfl,
      (congrArg Sequencer.starveLimit hk.seq).trans rfl, hk.showList, hk.cues, hk.clock,
      (congrArg SoundEngine.profiles hk.sound).trans rfl, (congrArg SoundEngine.law hk.sound).trans rfl,
      (congrArg SoundEngine.fader hk.sound).trans rfl, congrArg LinkReceiver.laneUp hk.link, hk.lane,
      fun i hi => hk.line hi, warmStart_unbound s, ⟨x, new, ?_, hkind, hd1, hd2⟩, hopen, hclosed⟩
    rw [hnew, hx]
    rfl
  · exact fun s => rfl
  · refine ⟨mainPowerLoss s, ?_, rfl, rfl, rfl, rfl, rfl, rfl, rfl, rfl, rfl, rfl, rfl, rfl, rfl, fun i hi => ?_, rfl, rfl⟩
    · show execMainPowerLoss s = _
      rw [execMainPowerLoss, powered, h]
      rfl
    · obtain ⟨ho, -, hin⟩ := (volatileReset_keepsStore { s.supplies with main := false } s).line hi
      exact ⟨ho, hin⟩

/-! ### What the management reset leaves -/

/-- The close of a management reset, before its PACE cell. -/
def resetClosed (s : State) : State := closeShowing .reset (pauseInProgress s.seq) (releaseAll (resetBlocks s))

theorem managementReset_closed (s : State) : Only [.lane] (resetClosed s) (managementReset s) :=
  formPace_only (resetClosed s)

/-- The lane of a management reset differs by the PACE cell of the entry to IDLE alone (R55, R190). -/
theorem managementReset_lane (s : State) : (managementReset s).lane.sending = s.lane.sending ∧
    (managementReset s).lane.sequence = s.lane.sequence ∧ (managementReset s).lane.pace.isSome = true := by
  have hc : (resetClosed s).lane = s.lane :=
    (((releaseAll_only (resetBlocks s)).trans (closeShowing_only .reset (pauseInProgress s.seq) _)).mono
      (qs := [.licences, .reports, .recorder]) (by decide)).eq .lane (by decide)
  have paced : ∀ t : State, (formPace t).lane.sending = t.lane.sending ∧ (formPace t).lane.sequence = t.lane.sequence ∧
      (formPace t).lane.pace.isSome = true := fun _ => ⟨rfl, rfl, rfl⟩
  have e : managementReset s = formPace (resetClosed s) := rfl
  rw [e, ← hc]
  exact paced (resetClosed s)

theorem managementReset_unbound (s : State) : Unbound (managementReset s).licences := by
  rw [(managementReset_closed s).eq .licences (by decide), resetClosed,
    (closeShowing_only .reset (pauseInProgress s.seq) (releaseAll (resetBlocks s))).eq .licences (by decide)]
  exact releaseAll_unbound _

/-- A management reset closes an OPEN showing RESET and leaves every other record (R166). -/
theorem managementReset_recorder (s : State) :
    (s.recorder.status = .opened → (managementReset s).recorder.status = .closed ∧
      (managementReset s).recorder.record.endCause = some .reset ∧
      (managementReset s).recorder.record.number = s.recorder.record.number) ∧
    (s.recorder.status ≠ .opened → (managementReset s).recorder = s.recorder) := by
  have ht : (releaseAll (resetBlocks s)).recorder = s.recorder := (releaseAll_only _).eq .recorder (by decide)
  have hl : (managementReset s).recorder =
      (closeShowing .reset (pauseInProgress s.seq) (releaseAll (resetBlocks s))).recorder :=
    (managementReset_closed s).eq .recorder (by decide)
  rw [hl]
  refine ⟨fun h => ?_, fun h => ?_⟩
  · obtain ⟨hst, hc, hn, -⟩ := closeShowing_opened .reset (pauseInProgress s.seq) (releaseAll (resetBlocks s))
      (by rw [ht]; exact h)
    exact ⟨hst, hc, hn.trans (by rw [ht])⟩
  · rw [closeShowing_not_opened _ _ _ (by rw [ht]; exact h), ht]

/-- The reports of a management reset are those of the release and of the close, under the full mask. -/
theorem managementReset_raised (s : State) :
    Raised (fun x => x.kind ∈ [.licenceState, .logHalf, .logFull, .logOverwrite, .showingEnd]) 68
      ⟨[], ReportUnit.fullMask, 0⟩ (managementReset s).reports := by
  have hr := (releaseAll_raised (resetBlocks s)).mono
    (Q := fun x => x.kind ∈ [.licenceState, .logHalf, .logFull, .logOverwrite, .showingEnd])
    (fun x hx => by simp [hx.1]) (Nat.le_refl 64)
  rw [(managementReset_closed s).eq .reports (by decide)]
  refine hr.trans ((closeShowing_raised .reset (pauseInProgress s.seq) (releaseAll (resetBlocks s))).mono
    (fun x hx => ?_) (Nat.le_refl 4))
  rcases hx with hx | hx
  · simp [hx]
  · exact List.mem_append_left [.showingEnd] (List.mem_cons_of_mem .licenceState hx)

/-- With no entry BOUND a management reset loses no report and its last one is the SHOWING_END of an OPEN record. -/
theorem managementReset_reports {s : State} (h : Unbound s.licences) :
    (managementReset s).reports.lost = 0 ∧ (managementReset s).licences = s.licences ∧
      (s.recorder.status ≠ .opened → (managementReset s).reports.queue = []) ∧
      (s.recorder.status = .opened → (managementReset s).reports.queue.getLast?.map
        (fun x => (x.kind, x.showing, x.detail1, x.detail2)) =
          some (.showingEnd, s.recorder.record.number, 4, if s.recorder.record.counted then 1 else 0)) := by
  have he : resetClosed s = closeShowing .reset (pauseInProgress s.seq) (resetBlocks s) := by
    rw [resetClosed, releaseAll_none (s := resetBlocks s) h]
  rw [(managementReset_closed s).eq .reports (by decide), (managementReset_closed s).eq .licences (by decide), he]
  have hempty : (resetBlocks s).reports = ⟨[], ReportUnit.fullMask, 0⟩ := rfl
  refine ⟨?_, (closeShowing_only _ _ _).eq .licences (by decide), fun ho => ?_, fun ho => ?_⟩
  · rw [(closeShowing_raised _ _ _).lost (by rw [hempty]; decide), hempty]
  · rw [closeShowing_not_opened .reset (pauseInProgress s.seq) (resetBlocks s) ho, hempty]
  · obtain ⟨u, x, hu, hx, hk⟩ := closeShowing_reports .reset (pauseInProgress s.seq) (resetBlocks s) ho
    obtain ⟨new, hq, hn, -⟩ := hu.queue
    have hlen : u.queue.length < Config.reportPlaces := by
      rw [hq, hempty]
      exact Nat.lt_of_le_of_lt hn (by decide)
    have hkind : x.kind = .showingEnd := congrArg Prod.fst hk
    have hm : u.mask.getLsbD x.kind.code = true := by
      rw [hu.mask, hkind, hempty]
      decide
    rw [hx, offer_joins hm hlen, List.getLast?_append, List.getLast?_singleton]
    exact congrArg some hk

theorem execReset_of {s : State} {r : Request} {rest : List Request} (h : HeadIs s 31 r rest) (hp : r.params = []) :
    exec .reset s = .next (managementReset (replied r .ok [] s)) := by
  have hr : headRequest (ofKind 31) s = some r := by
    have hroom := h.room
    simp [headRequest, h.queue, powered, h.power, ofKind, h.isKind, hroom]
  show execReset s = _
  rw [execReset, hr]
  simp only [resetPerformed, if_pos hp, answered_eq]
  rfl

/-- Settles O30: the blocks are reset, and the release, the close and the PACE cell touch only what they say. -/
theorem resetCarriesOutManagementReset : Obligations.reset_carries_out_management_reset := by
  intro s r rest h hp
  obtain ⟨a, ha⟩ : ∃ a, a = replied r .ok [] s := ⟨_, rfl⟩
  have ho := managementReset_only a
  have hseq : (managementReset a).seq = (resetBlocks a).seq := ho.eq .seq (by decide)
  have hlink : (managementReset a).link = (resetBlocks a).link := ho.eq .link (by decide)
  have htrack : (managementReset a).track = (resetBlocks a).track := ho.eq .track (by decide)
  have hsound : (managementReset a).sound = (resetBlocks a).sound := ho.eq .sound (by decide)
  have hlines : (managementReset a).lines = (resetBlocks a).lines := ho.eq .lines (by decide)
  have hcaption : (managementReset a).caption = (resetBlocks a).caption := ho.eq .caption (by decide)
  have hmgmt : (managementReset a).mgmt = (resetBlocks a).mgmt := ho.eq .mgmt (by decide)
  obtain ⟨hsending, hsequence, hpace⟩ := managementReset_lane a
  have hraised := managementReset_raised a
  obtain ⟨new, hnew, -, hkinds⟩ := hraised.queue
  obtain ⟨hopen, hclosed⟩ := managementReset_recorder a
  have hreports := managementReset_reports (s := a)
  refine ⟨managementReset a, ha ▸ execReset_of h hp, ?_⟩
  rw [hseq, hlink, htrack, hsound, hlines, hcaption, hmgmt, hsending, hsequence, hpace, ho.eq .engine (by decide),
    ho.eq .text (by decide), ho.eq .picture (by decide), ho.eq .clock (by decide), ho.eq .showList (by decide),
    ho.eq .cues (by decide), ho.eq .supplies (by decide)]
  have hslots : ∀ k, k < 6 → (bankGet (resetBlocks a).track.slots k).expected = (bankGet s.track.slots k).expected ∧
      (bankGet (resetBlocks a).track.slots k).assembly = .skipping := fun k hk => by
    have e : bankGet (resetBlocks a).track.slots k = { bankGet s.track.slots k with assembly := .skipping } := by
      rw [ha]
      exact bankGet_map _ _ k hk
    rw [e]
    exact ⟨rfl, rfl⟩
  have hqueues : ∀ k, k < 4 → queueOf (managementReset a) k = [] := fun k hk => by
    rw [queueOf, htrack]
    exact reset_queues hk
  subst ha
  exact ⟨rfl, rfl, rfl, rfl, rfl, rfl, rfl, rfl, rfl, rfl, rfl, rfl, rfl, rfl, hslots, hqueues, rfl, rfl, rfl, rfl, rfl,
    rfl, rfl, rfl, rfl, rfl, rfl, rfl, rfl, rfl, rfl, fun i hi => restLines_at _ _ _ hi, rfl, rfl, rfl, hraised.mask,
    hnew ▸ hkinds, hreports, managementReset_unbound _, hopen, hclosed⟩

end Sys2Proof.Machine
end

section
/-! PROOF. The CUE SHOW that is accepted (R8) and the unpacking engine (R64 to R66, R71, R126). -/

namespace Sys2Proof.Machine

/-! ### An accepted CUE SHOW -/

/-- A segment's selection records it and leaves the rest of the recorder (R160). -/
theorem enterSegment_recorder (l : List Nat) (p : Nat) (s : State) :
    (enterSegment l p s).recorder = s.recorder.feed (fun r => { r with
      results := r.results ++ l.map (fun i => SegResult.blank i .skipped none) ++
        [SegResult.blank (contextFor s p).played .inProgress
          (if (contextFor s p).segment.cls = .feature then some (contextFor s p).segment.composition else none)]
      lastPrincipal := (contextFor s p).principal }) := by
  have rest : ∀ u : State, (let v := textSelection (contextFor s p) ((l ++ (contextFor s p).other.toList).foldl discardEntry
        (raise .segmentStart (contextFor s p).played (contextFor s p).principal
          (u.withSeq (u.seq.filled (contextFor s p)))))
      v.withSound { v.sound with clipReported := false }).recorder = u.recorder := fun u =>
    ((((only_withSeq u _).trans (raise_only _ _ _ _)).trans
      (Only.foldl discardEntry discardEntry_only _ _)).trans ((textSelection_only _ _).trans (only_withSound _ _))).eq
      .recorder (by decide)
  exact rest (recordSelection l (contextFor s p) s)

/-- What a CUE SHOW does after the selection of its first segment (R8 steps 3 to 7). -/
def enterCued (g : Segment) (u : State) : State :=
  formPace (raise .showState SeqState.cued.code 0 (sendBlack g
    (((u.withSeq u.seq.cued).withSound (u.sound.cueShow g)).withPicture u.picture.cueShow)))

theorem cueAccepted_eq (l : List Nat) (p : Nat) (s : State) :
    cueAccepted l p s = enterCued (contextFor s p).segment (enterSegment l p (bindShow s)) := rfl

theorem change_settings (p : Nat) (rate : SampleRate) (q : SoundEngine) :
    (q.change p rate).inForce = p ∧ (q.change p rate).rate = rate := by
  unfold SoundEngine.change
  dsimp only
  split <;> exact ⟨rfl, rfl⟩

/-- The sound profile and sample rate of the segment cued come into force (R103, R110). -/
theorem cueShow_settings (g : Segment) (q : SoundEngine) :
    (q.cueShow g).inForce = g.profile ∧ (q.cueShow g).rate = g.srate := by
  unfold SoundEngine.cueShow
  dsimp only
  split <;> exact change_settings g.profile g.srate q

/-- Where no check refuses a CUE SHOW, selection chooses an entry (R7). -/
theorem selected_of_accepted {s : State} (h : cueRefusal s = none) :
    ∃ l p, selectAt s.showList s.seq.flags 0 = (l, some p) := by
  cases hsel : (selectAt s.showList s.seq.flags 0).2 with
  | some p => exact ⟨_, p, Prod.ext rfl hsel⟩
  | none =>
    unfold cueRefusal at h
    split at h
    · cases h
    · split at h
      · cases h
      · split at h
        · cases h
        · cases h

/-- Settles O23: the showing is opened, the segment entered, and CUED entered. -/
theorem cueShowOpensShowing : Obligations.cue_show_opens_showing := by
  intro s r rest h hp hr
  obtain ⟨l, p, hsel⟩ := selected_of_accepted hr
  have hctx : contextFor (bindShow s) p = contextFor s p := rfl
  obtain ⟨u, hu⟩ : ∃ u, u = enterSegment l p (bindShow s) := ⟨_, rfl⟩
  have hseq : u.seq = s.seq.filled (contextFor s p) := by
    rw [hu, enterSegment_seq, hctx]
    rfl
  have hrec : u.recorder = (bindShow s).recorder.feed _ := hu ▸ enterSegment_recorder l p (bindShow s)
  have hlic : u.licences = bindAll s.showList s.licences s.clock.seconds := by
    rw [hu, (enterSegment_only l p (bindShow s)).eq .licences (by decide)]
    rfl
  obtain ⟨hforce, hrate⟩ := cueShow_settings (contextFor s p).segment u.sound
  refine ⟨p, enterCued (contextFor s p).segment u, congrArg Prod.snd hsel, ?_, rfl, congrArg Sequencer.ctx hseq,
    congrArg Sequencer.seg hseq, congrArg Sequencer.offset hseq, rfl, rfl, rfl, congrArg Sequencer.ticksPerUnit hseq,
    congrArg Recorder.status hrec, congrArg Recorder.nextNumber hrec, congrArg (fun x => x.record.number) hrec,
    congrArg (fun x => x.record.bound) hrec, congrArg (fun x => x.record.startTime) hrec,
    congrArg (fun x => x.record.counted) hrec, hlic, rfl, rfl, rfl, rfl, hforce, hrate, ?_⟩
  · refine performs_answers h (by simp [hp]) ?_
    rw [cueShow, hr, hsel, hu, ← cueAccepted_eq]
    rfl
  · rw [hu, ← cueAccepted_eq]
    exact cueAccepted_only l p s

/-! ### The engine takes a unit -/

theorem firstWaiting_mem {s : State} {l : List Waiting} {w : Waiting} (h : firstWaiting s l = some w) : w ∈ l := by
  have fold : ∀ (l : List Waiting) (b : Waiting),
      l.foldl (fun best x => if before s x.position best.position then x else best) b ∈ b :: l := by
    intro l
    induction l with
    | nil => exact fun b => List.mem_singleton.mpr rfl
    | cons x l ih =>
      intro b
      rw [List.foldl_cons]
      split
      · exact List.mem_cons_of_mem b (ih x)
      · rcases List.mem_cons.mp (ih b) with e | e
        · rw [e]
          exact List.mem_cons_self
        · exact List.mem_cons_of_mem b (List.mem_cons_of_mem x e)
  cases l with
  | nil => cases h
  | cons x l =>
    rw [← Option.some.inj h]
    exact fold l x

/-- A unit the engine may take from a track queue has content there. -/
theorem unitContent_of_unit {s : State} {slot : Nat} {w : Waiting} (hs : slot < 4) (h : w ∈ waitingUnits s slot) :
    ∃ x, unitContent s w.slot w.seg w.unit .waiting = some x := by
  obtain ⟨u, hu, rfl⟩ := List.mem_map.mp h
  obtain ⟨hmem, hw⟩ := List.mem_filter.mp hu
  have hst : (u.state == .waiting) = true := (Bool.and_eq_true _ _ ▸ hw).1
  rw [unitContent, if_pos hs, ← Option.isSome_iff_exists, Option.isSome_map, List.find?_isSome]
  exact ⟨u, hmem, by simp [hst]⟩

/-- A resource the engine may take has content in the text store. -/
theorem unitContent_of_resource {s : State} {slot : Nat} {w : Waiting} (hs : ¬ slot < 4)
    (h : w ∈ waitingResources s slot) : ∃ x, unitContent s w.slot w.seg w.unit .waiting = some x := by
  obtain ⟨r, hr, rfl⟩ := List.mem_map.mp h
  obtain ⟨hmem, hw⟩ := List.mem_filter.mp hr
  obtain ⟨hslot, hst⟩ := Bool.and_eq_true _ _ ▸ hw
  rw [unitContent, if_neg hs, ← Option.isSome_iff_exists, Option.isSome_map, List.find?_isSome]
  exact ⟨r, hmem, by simp [Resource.named, hslot, hst]⟩

theorem unitContent_of_eligible {s : State} {w : Waiting} (h : w ∈ eligible s) :
    ∃ x, unitContent s w.slot w.seg w.unit .waiting = some x := by
  simp only [eligible, List.mem_append] at h
  rcases h with ((((h | h) | h) | h) | h) | h
  · exact unitContent_of_unit (by decide) h
  · exact unitContent_of_unit (by decide) h
  · exact unitContent_of_unit (by decide) h
  · exact unitContent_of_unit (by decide) h
  · exact unitContent_of_resource (by decide) h
  · exact unitContent_of_resource (by decide) h

/-- Settles O45: what is eligible has content, so the engine takes the first. -/
theorem engineTakesAndAbandons : Obligations.engine_takes_and_abandons := by
  refine ⟨fun s w hp he hw => ?_, fun s j hp he ha => ?_⟩
  · obtain ⟨⟨len, content⟩, hc⟩ := unitContent_of_eligible (firstWaiting_mem hw)
    have htake : engineTake s = (changeUnit w.slot w.seg w.unit (fun u => { u with state := .unpacking })
        (fun r => { r with state := .unpacking }) s).withEngine (some (jobFor s w len content)) := by
      simp only [engineTake, he, hw, hc]
    refine ⟨engineTake s, jobFor s w len content, len, content, next_powered hp _, hc, congrArg State.engine htake,
      rfl, rfl, rfl, rfl, ?_, engineTake_only s⟩
    show (takeCheck s.licences (segmentOf s w.seg) (slotKind w.slot) len content).1 = _
    unfold takeCheck
    split <;> rfl
  · show exec .unpackAbandon s = _
    rw [show exec .unpackAbandon s = .next (engineAbandon s) from next_powered hp _, engineAbandon, he]
    exact congrArg _ (if_pos ha)

/-! ### The engine completes a unit -/

/-- The check attributes a completed unit of a text, picture or sound slot takes on (R71). -/
theorem attrsOf_eq (j : UnpackJob) (p : List Byte) : attrsOf j p = {
    isProtected := j.isProtected
    composition := if j.isProtected then some j.composition else none
    licence := j.key.map (·.1)
    sound := if j.slot = 2 ∨ j.slot = 3 then some ⟨j.srate, samplesPerUnit j.rate j.srate, byteAt p 0⟩ else none } := by
  have hk : slotKind j.slot = 1 ↔ j.slot = 2 ∨ j.slot = 3 := by
    unfold slotKind
    split
    · omega
    · split <;> omega
  simp only [attrsOf, hk]

/-- The completing engine finishes its unit and, of a resource, does at once what becoming READY brings (R66, R122). -/
theorem engineComplete_eq {s : State} {j : UnpackJob} {len : Nat} {content : List Byte} (he : s.engine = some j)
    (ha : j.abandoned = false) (hc : unitContent s j.slot j.seg j.unit .unpacking = some (len, content)) :
    engineComplete s =
      (let s1 := (changeUnit j.slot j.seg j.unit (finishUnit j (unpack j len content))
        (finishResource j (unpack j len content)) s).withEngine none
      if j.slot < 4 then s1 else resourceReady j.seg j.slot j.unit s1) := by
  simp only [engineComplete, he, ha, hc, Bool.false_eq_true, if_false]

/-- What the admission of cues leaves: the text store and both cue tables (R127, R136). -/
structure KeepsTables (s t : State) : Prop where
  store : t.text.store = s.text.store
  t0 : t.text.t0 = s.text.t0
  t1 : t.text.t1 = s.text.t1

theorem KeepsTables.refl (s : State) : KeepsTables s s := ⟨rfl, rfl, rfl⟩

theorem KeepsTables.trans {s t u : State} (h : KeepsTables s t) (k : KeepsTables t u) : KeepsTables s u :=
  ⟨k.store.trans h.store, k.t0.trans h.t0, k.t1.trans h.t1⟩

theorem KeepsTables.of_only {ps : List Part} {s t : State} (h : Only ps s t) (hp : Part.text ∉ ps) : KeepsTables s t :=
  have e : t.text = s.text := h.eq .text hp
  ⟨congrArg TextEngine.store e, congrArg TextEngine.t0 e, congrArg TextEngine.t1 e⟩

theorem KeepsTables.foldl {α : Type} (f : State → α → State) (h : ∀ s a, KeepsTables s (f s a)) :
    ∀ (l : List α) (s : State), KeepsTables s (l.foldl f s)
  | [], s => .refl s
  | a :: l, s => (h s a).trans (KeepsTables.foldl f h l (f s a))

theorem admitT0_keepsTables (s : State) (c : Cue) : KeepsTables s (admitT0 s c) := by
  unfold admitT0
  split
  · dsimp only
    split
    · exact ⟨rfl, rfl, rfl⟩
    · exact ⟨rfl, rfl, rfl⟩
  · exact .of_only ((feedRecord_only _ s).trans (raise_only _ _ _ _)) (by decide)

theorem setCaptions_keepsTables (l : List Displayed) (s : State) : KeepsTables s (setCaptions l s) := ⟨rfl, rfl, rfl⟩

theorem admitT1_keepsTables (w : Bool) (s : State) (c : Cue) : KeepsTables s (admitT1 w s c) := by
  unfold admitT1
  dsimp only
  split
  · exact setCaptions_keepsTables _ s
  · exact (KeepsTables.of_only (queueShow_only _ s) (by decide)).trans (setCaptions_keepsTables _ _)

/-- The late list's table is set, its comparator at the first cue whose in is above the last unit begun (R126). -/
theorem lateLoad_tables (slot u : Nat) (r : Resource) (s : State) :
    (lateLoad slot u r s).text.store = s.text.store ∧
      tableOf (lateLoad slot u r s).text slot = ⟨(listCues slot r.content).1,
        (listCues slot r.content).1.findIdx? (fun x => decide (u < x.inPoint)), true⟩ := by
  have table : ∀ (x : CueTable) (n : Nat) (t : State), KeepsTables (countBadCues n (setTable slot x s)) t →
      ∀ k a b, (raise k a b t).text.store = s.text.store ∧ tableOf (raise k a b t).text slot = x := by
    intro x n t h k a b
    have hx : tableOf (setTable slot x s).text slot = x := by
      unfold tableOf setTable
      split <;> rfl
    have ht : tableOf t.text slot = tableOf (setTable slot x s).text slot := by
      unfold tableOf
      split
      · exact h.t0
      · exact h.t1
    refine ⟨h.store.trans ?_, ht.trans hx⟩
    show (setTable slot x s).text.store = s.text.store
    unfold setTable
    split <;> rfl
  unfold lateLoad
  dsimp only
  refine table _ (listCues slot r.content).2 _ ?_ _ _ _
  split
  · exact .foldl _ admitT0_keepsTables _ _
  · exact .foldl _ (admitT1_keepsTables _) _ _

/-- A report raised after the showing was only fed is the report raised before it. -/
theorem raise_reports_of_feeds {s t : State} (h : Only [.text, .recorder, .engine] s t) (hf : Feeds s t) (k : ReportKind)
    (a b : Nat) : (raise k a b t).reports = (raise k a b s).reports := by
  have hclock : t.clock = s.clock := h.eq .clock (by decide)
  have hseq : t.seq = s.seq := h.eq .seq (by decide)
  have hreports : t.reports = s.reports := h.eq .reports (by decide)
  have hstamp : stamped k (showingNow t) a b t = stamped k (showingNow s) a b s := by
    simp only [stamped, showingNow, boothNow, hclock, hseq, hf.number, hf.status]
  show t.reports.offer _ = s.reports.offer _
  rw [hreports, hstamp]

/-- Where no cue of a late list is in display, RESOURCE_LATE with the count of the past ones is all it reports (R126). -/
theorem lateLoad_reports {slot u : Nat} {r : Resource} {s : State}
    (h : ∀ x ∈ (listCues slot r.content).1, u < x.inPoint ∨ x.outPoint ≤ u) :
    (lateLoad slot u r s).reports = (raise .resourceLate slot
      ((listCues slot r.content).1.filter (fun x => decide (x.outPoint ≤ u))).length s).reports := by
  have hnone : (listCues slot r.content).1.filter (fun x => decide (x.inPoint ≤ u) && decide (u < x.outPoint)) = [] := by
    refine List.filter_eq_nil_iff.mpr fun x hx => ?_
    have := h x hx
    simp only [Bool.and_eq_true, decide_eq_true_eq]
    omega
  have loaded : ∀ (x : CueTable) (n a b : Nat),
      (raise .resourceLate a b (countBadCues n (setTable slot x s))).reports = (raise .resourceLate a b s).reports :=
    fun x n a b => raise_reports_of_feeds (((setTable_only slot x s).trans (feedRecord_only _ _)).mono (by decide))
      ((Feeds.of_only (setTable_only slot x s) (by decide)).trans (countBadCues_feeds _ _)) _ a b
  unfold lateLoad
  dsimp only
  rw [hnone]
  simp only [List.foldl_nil, ite_self]
  exact loaded _ _ _ _

/-- What becoming READY brings a resource leaves the text store (R122, R126). -/
theorem listReady_store (r : Resource) (s : State) : (listReady r s).text.store = s.text.store := by
  unfold listReady
  split
  · split
    · exact (lateLoad_tables _ _ r s).1
    · rfl
  · rfl

theorem resourceReady_store (seg slot id : Nat) (s : State) :
    (resourceReady seg slot id s).text.store = s.text.store := by
  unfold resourceReady
  split
  · split
    · exact listReady_store _ s
    · rfl
  · rfl

/-- A list whose table is loaded is not loaded again (R126). -/
theorem listReady_loaded {r : Resource} {s : State} (h : (tableOf s.text r.slot).loaded = true) : listReady r s = s := by
  unfold listReady
  split
  · rw [if_neg (by simp [h])]
  · rfl

theorem named_iff (r : Resource) (seg slot id : Nat) :
    r.named seg slot id = true ↔ r.seg = seg ∧ r.slot = slot ∧ r.id = id := by
  simp [Resource.named, and_assoc]

theorem findResource_named {s : State} {seg slot id : Nat} {r : Resource} (h : findResource s seg slot id = some r) :
    r.seg = seg ∧ r.slot = slot ∧ r.id = id :=
  (named_iff r seg slot id).mp (List.find?_some (p := fun x : Resource => x.named seg slot id) h)

theorem resourceReady_loaded {seg slot id : Nat} {s : State} (h : (tableOf s.text slot).loaded = true) :
    resourceReady seg slot id s = s := by
  unfold resourceReady
  split
  · rename_i r hr
    obtain ⟨-, hslot, -⟩ := findResource_named hr
    split
    · exact listReady_loaded (by rw [hslot]; exact h)
    · rfl
  · rfl

theorem finishResource_name (j : UnpackJob) (o : Except Cause (List Byte)) (x : Resource) :
    (finishResource j o x).seg = x.seg ∧ (finishResource j o x).slot = x.slot ∧ (finishResource j o x).id = x.id := by
  unfold finishResource
  split
  · split <;> exact ⟨rfl, rfl, rfl⟩
  · exact ⟨rfl, rfl, rfl⟩

/-- The resource a name finds after the named ones of the store were finished is the one it found before, finished. -/
theorem findResource_finished {s t : State} {j : UnpackJob} {o : Except Cause (List Byte)} {r : Resource}
    (ht : t.text.store = s.text.store.map (fun x => if x.named j.seg j.slot j.unit then finishResource j o x else x))
    (hr : findResource s j.seg j.slot j.unit = some r) :
    findResource t j.seg j.slot j.unit = some (finishResource j o r) := by
  have hname : ∀ x : Resource, (if x.named j.seg j.slot j.unit then finishResource j o x else x).named j.seg j.slot j.unit =
      x.named j.seg j.slot j.unit := by
    intro x
    obtain ⟨h1, h2, h3⟩ := finishResource_name j o x
    split
    · simp only [Resource.named, h1, h2, h3]
    · rfl
  have hcomp : ((fun x : Resource => x.named j.seg j.slot j.unit) ∘
      fun x => if x.named j.seg j.slot j.unit then finishResource j o x else x) =
      fun x => x.named j.seg j.slot j.unit := funext hname
  have hn : r.named j.seg j.slot j.unit = true :=
    List.find?_some (p := fun x : Resource => x.named j.seg j.slot j.unit) hr
  rw [findResource] at hr ⊢
  rw [ht, List.find?_map, hcomp, hr, Option.map_some, if_pos hn]

/-- A resource whose content the engine unpacks is in the store under its name. -/
theorem findResource_of_content {s : State} {slot seg unit : Nat} {st : UnitState} {x : Nat × List Byte} (hs : ¬ slot < 4)
    (h : unitContent s slot seg unit st = some x) : ∃ r, findResource s seg slot unit = some r := by
  rw [unitContent, if_neg hs, Option.map_eq_some_iff] at h
  obtain ⟨r, hr, -⟩ := h
  have hn := List.find?_some hr
  rw [← Option.isSome_iff_exists, findResource, List.find?_isSome]
  exact ⟨r, List.mem_of_find?_eq_some hr, (Bool.and_eq_true _ _ ▸ hn).1⟩

/-- A list that becomes READY for the current segment, its slot on and its table not loaded, is loaded late (R126). -/
theorem resourceReady_late {s : State} {seg slot id u : Nat} {r : Resource} {c : Context}
    (hr : findResource s seg slot id = some r) (hst : r.state = .ready) (hk : r.kind ≠ some .image)
    (hc : s.seq.ctx = some c) (hseg : c.played = seg) (hon : slotOn c.segment slot = true)
    (hl : (tableOf s.text slot).loaded = false) (hu : lastBegun s.seq = some u) :
    resourceReady seg slot id s = lateLoad slot u r s := by
  obtain ⟨hrseg, hrslot, -⟩ := findResource_named hr
  rw [resourceReady, hr]
  show (if _ then _ else _) = _
  rw [if_pos ⟨hst, hk⟩]
  simp only [listReady, hc, hu, hrseg, hrslot, hseg, hon, hl, and_self, if_true]

/-- The engine's completion of a picture or sound unit. -/
theorem engineComplete_unit {s : State} {j : UnpackJob} {len : Nat} {content : List Byte} (he : s.engine = some j)
    (ha : j.abandoned = false) (hc : unitContent s j.slot j.seg j.unit .unpacking = some (len, content)) (hs : j.slot < 4) :
    engineComplete s = (setQueue j.slot ((queueOf s j.slot).map (fun u =>
      if u.seg = j.seg ∧ u.unit = j.unit then finishUnit j (unpack j len content) u else u)) s).withEngine none := by
  rw [engineComplete_eq he ha hc]
  dsimp only
  rw [if_pos hs, changeUnit, if_pos hs]

/-- The text store once the engine has finished its resource. -/
def finishedStore (s : State) (j : UnpackJob) (o : Except Cause (List Byte)) : State :=
  (setStore (s.text.store.map (fun x => if x.named j.seg j.slot j.unit then finishResource j o x else x)) s).withEngine none

theorem finishedStore_only (s : State) (j : UnpackJob) (o : Except Cause (List Byte)) :
    Only [.text, .engine] s (finishedStore s j o) :=
  (setStore_only _ s).trans (only_withEngine _ _)

/-- The engine's completion of a resource. -/
theorem engineComplete_resource {s : State} {j : UnpackJob} {len : Nat} {content : List Byte} (he : s.engine = some j)
    (ha : j.abandoned = false) (hc : unitContent s j.slot j.seg j.unit .unpacking = some (len, content))
    (hs : ¬ j.slot < 4) :
    engineComplete s = resourceReady j.seg j.slot j.unit (finishedStore s j (unpack j len content)) := by
  rw [engineComplete_eq he ha hc]
  dsimp only
  rw [if_neg hs, changeUnit, if_neg hs]
  rfl

/-- Settles O46: the unit of the name is finished, and a list that becomes READY may be loaded late. -/
theorem engineCompletesUnit : Obligations.engine_completes_unit := by
  intro s j len content hp he ha hc attrs
  have hexec : exec .unpackComplete s = .next (engineComplete s) := next_powered hp _
  have hattrs : ∀ p, some (attrsOf j p) = attrs p := fun p => congrArg some (attrsOf_eq j p)
  refine ⟨fun hs => ⟨_, hexec.trans (congrArg _ (engineComplete_unit he ha hc hs)), rfl,
    ((setQueue_only _ _ s).trans (only_withEngine _ _)), fun k hk => bankGet_set_other _ _ _ _ (Ne.symm hk),
    (bankGet_set_same _ _ _ hs).trans (List.map_congr_left fun u _ => ?_)⟩, fun hs => ?_⟩
  · cases unpack j len content with
    | ok p => simp only [finishUnit, hattrs]
    | error c => rfl
  · have h4 : ¬ j.slot < 4 := by omega
    obtain ⟨r, hr⟩ := findResource_of_content h4 hc
    obtain ⟨hrseg, hrslot, hrid⟩ := findResource_named hr
    have ho := finishedStore_only s j (unpack j len content)
    have hready := resourceReady_only j.seg j.slot j.unit (finishedStore s j (unpack j len content))
    have hseq : (finishedStore s j (unpack j len content)).seq = s.seq := ho.eq .seq (by decide)
    have htable : tableOf (finishedStore s j (unpack j len content)).text j.slot = tableOf s.text j.slot := rfl
    refine ⟨_, hexec.trans (congrArg _ (engineComplete_resource he ha hc h4)), hready.eq .engine (by decide),
      (ho.trans hready).mono (by decide), ?_, fun p k c u hu hk hne hctx hseg hon hl hlast => ?_, fun hl => ?_⟩
    · rw [resourceReady_store]
      refine List.map_congr_left fun x _ => ?_
      split
      · rename_i hn
        obtain ⟨-, hslot, hid⟩ := (named_iff _ _ _ _).mp hn
        cases unpack j len content with
        | error c => rfl
        | ok p =>
          simp only [finishResource, hslot, hid]
          cases resourceKind j.slot j.unit p with
          | none => rfl
          | some k => simp only [hattrs]
      · rfl
    · have hfin : finishResource j (unpack j len content) r =
          { r with state := .ready, kind := some k, content := p, attrs := some (attrsOf j p) } := by
        simp only [finishResource, hu, hrslot, hrid, hk]
      have hf := findResource_finished (t := finishedStore s j (unpack j len content)) rfl hr
      rw [hfin] at hf
      rw [resourceReady_late hf rfl (by simpa using hne) (by rw [hseq]; exact hctx) hseg hon (by rw [htable]; exact hl)
        (by rw [hseq]; exact hlast)]
      refine ⟨(lateLoad_tables _ _ _ _).2, fun hout => (lateLoad_reports hout).trans ?_⟩
      exact raise_reports_of_feeds (ho.mono (by decide)) (.of_only ho (by decide)) _ _ _
    · rw [resourceReady_loaded (by rw [htable]; exact hl)]
      exact ⟨rfl, rfl, rfl, rfl⟩

end Sys2Proof.Machine
end

section
/-! PROOF. Unit-starts that are accepted: an ESSENCE unit in its track queue (R46 to R49), a resource in the text store
(R51, R120). -/

namespace Sys2Proof.Machine

/-! ### Queues and assembly states -/

theorem queueOf_setQueue {slot : Nat} (h : slot < 4) (q : List UnitRec) (s : State) : queueOf (setQueue slot q s) slot = q :=
  bankGet_set_same _ _ _ h

theorem queueOf_setQueue_other {slot k : Nat} (h : k ≠ slot) (q : List UnitRec) (s : State) :
    queueOf (setQueue slot q s) k = queueOf s k :=
  bankGet_set_other _ _ _ _ (Ne.symm h)

theorem assemblyOf_setAssembly {slot : Nat} (h : slot < 6) (a : Assembly) (s : State) :
    assemblyOf (setAssembly slot a s) slot = a := by
  rw [assemblyOf, show (setAssembly slot a s).track.slots = bankSet s.track.slots slot _ from rfl, bankGet_set_same _ _ _ h]

/-- The sequence number a slot expects stands as its assembly state is set (R44). -/
theorem expected_setAssembly {slot : Nat} (h : slot < 6) (a : Assembly) (s : State) :
    (bankGet (setAssembly slot a s).track.slots slot).expected = (bankGet s.track.slots slot).expected := by
  rw [show (setAssembly slot a s).track.slots = bankSet s.track.slots slot _ from rfl, bankGet_set_same _ _ _ h]

/-! ### What a cell's checks read -/

/-- The checks of an essence unit read the Sequencer, the show list, the queues and the engine alone (R47). -/
theorem essenceCheck_congr {s t : State} (slot seg unit : Nat) (hq : t.seq = s.seq) (hl : t.showList = s.showList)
    (ht : t.track.queues = s.track.queues) (he : t.engine = s.engine) :
    essenceCheck slot seg unit t = essenceCheck slot seg unit s := by
  have reads : essenceCheck slot seg unit t = essenceCheck slot seg unit { s with
      seq := t.seq
      showList := t.showList
      track := { s.track with queues := t.track.queues }
      engine := t.engine } := rfl
  rw [reads, hq, hl, ht, he]

/-- The checks of a resource read the Sequencer and the show list alone (R51). -/
theorem resourceCheck_congr {s t : State} (slot seg : Nat) (hq : t.seq = s.seq) (hl : t.showList = s.showList) :
    resourceCheck slot seg t = resourceCheck slot seg s := by
  have reads : resourceCheck slot seg t = resourceCheck slot seg { s with
      seq := t.seq
      showList := t.showList } := rfl
  rw [reads, hq, hl]

/-- A cell of the expected number before its unit is assembled: the lane is UP and the slot expects the next (R42, R44). -/
def inSequence (slot n : Nat) (s : State) : State := sequenceCheck slot n (laneValid s)

theorem inSequence_eq {slot n : Nat} {s : State} (h : (bankGet s.track.slots slot).expected = some n) :
    inSequence slot n s = (laneValid s).withTrack { s.track with
      slots := bankSet s.track.slots slot
        { bankGet s.track.slots slot with expected := some ((n + 1) % 65536) } } := by
  have ht : (laneValid s).track = s.track := (laneValid_only s).eq .track (by decide)
  rw [inSequence, sequenceCheck_expected slot n _ (by rw [ht]; exact h), ht]

theorem inSequence_only {slot n : Nat} {s : State} (h : (bankGet s.track.slots slot).expected = some n) :
    Only [.track, .link, .reports] s (inSequence slot n s) := by
  rw [inSequence_eq h]
  exact ((laneValid_only s).trans (only_withTrack _ _)).mono (by decide)

theorem inSequence_queues {slot n : Nat} {s : State} (h : (bankGet s.track.slots slot).expected = some n) :
    (inSequence slot n s).track.queues = s.track.queues := by
  rw [inSequence_eq h]
  rfl

theorem inSequence_slot {slot n : Nat} {s : State} (hs : slot < 6)
    (h : (bankGet s.track.slots slot).expected = some n) :
    bankGet (inSequence slot n s).track.slots slot =
      { bankGet s.track.slots slot with expected := some ((n + 1) % 65536) } := by
  rw [inSequence_eq h]
  exact bankGet_set_same _ _ _ hs

theorem inSequence_counters {slot n : Nat} {s : State} (h : (bankGet s.track.slots slot).expected = some n) :
    (inSequence slot n s).link.counters = s.link.counters := by
  rw [inSequence_eq h]
  exact (laneValid_link s).2.2

/-- A valid unit-start of the expected number at a slot not OPEN starts its unit (R46). -/
theorem receiveCell_starts {c : Cell} {s : State} (hv : c.valid = true) (hk : c.kind = 1 ∨ c.kind = 2)
    (hstart : c.unitStart = true) (hs : c.slot < 6) (he : (bankGet s.track.slots c.slot).expected = some c.seqNumber)
    (ho : assemblyOf s c.slot ≠ .opened) : receiveCell c s = startUnit c (inSequence c.slot c.seqNumber s) := by
  have hh : handleCell c (laneValid s) = assembleCell c (inSequence c.slot c.seqNumber s) := by
    unfold handleCell
    rcases hk with e | e <;> rw [e] <;> rfl
  have hno : assemblyOf (inSequence c.slot c.seqNumber s) c.slot ≠ .opened := by
    rw [assemblyOf, inSequence_slot hs he]
    exact ho
  rw [receiveCell, if_pos hv, hh, assembleCell, if_pos hstart, if_neg hno]

/-! ### An essence unit joins its queue -/

/-- With none but the last unit of a queue ASSEMBLING, the open unit is the last. -/
theorem changeOpen_last {slot : Nat} (hs : slot < 4) {s : State} {l : List UnitRec} {u : UnitRec} (f : UnitRec → UnitRec)
    (hq : queueOf s slot = l ++ [u]) (hl : ∀ x ∈ l, x.state ≠ .assembling) (hu : u.state = .assembling) :
    queueOf (changeOpen f slot s) slot = l ++ [f u] := by
  rw [changeOpen, queueOf_setQueue hs, hq, List.map_append, List.map_singleton, if_pos hu]
  refine congrArg (· ++ [f u]) ?_
  conv_rhs => rw [← List.map_id l]
  exact List.map_congr_left fun x hx => if_neg (hl x hx)

theorem addPayload_fits {slot : Nat} (hs : slot < 4) {s : State} {l : List UnitRec} {u : UnitRec} {p : List Byte}
    (hq : queueOf s slot = l ++ [u]) (hl : ∀ x ∈ l, x.state ≠ .assembling) (hu : u.state = .assembling)
    (ho : u.overlong = false) (hp : u.storedLen + p.length ≤ unitLimit slot) :
    addPayload slot p s = changeOpen (·.stored p) slot s := by
  have hfind : (queueOf s slot).find? (fun x => x.state == .assembling) = some u := by
    rw [hq, List.find?_append, List.find?_eq_none.mpr fun x hx => by simpa using hl x hx]
    simp [hu]
  rw [addPayload, if_pos hs, addUnitPayload, hfind]
  show (if _ then _ else _) = _
  rw [if_neg (by simp [ho]), if_neg (Nat.not_lt.mpr hp)]

/-- A payload of one cell fits in every slot's limit (R41, R49). -/
theorem payload_fits {c : Cell} (hv : c.valid = true) : c.payload.length ≤ unitLimit c.slot := by
  have hlen : c.payload.length ≤ 1024 := by
    simp only [Cell.valid, Bool.and_eq_true, decide_eq_true_eq, beq_iff_eq] at hv
    omega
  refine hlen.trans ?_
  unfold unitLimit
  split <;> decide

theorem slot_of_essence {c : Cell} (hv : c.valid = true) (hk : c.kind = 1) : c.slot < 4 := by
  simp only [Cell.valid, hk, Bool.and_eq_true, Bool.or_eq_true, decide_eq_true_eq, beq_iff_eq, bne_self_eq_false,
    Bool.false_eq_true, false_or] at hv
  omega

theorem slot_of_resource {c : Cell} (hv : c.valid = true) (hk : c.kind = 2) : c.slot = 4 ∨ c.slot = 5 := by
  simp only [Cell.valid, hk, Bool.and_eq_true, Bool.or_eq_true, decide_eq_true_eq, beq_iff_eq, bne_self_eq_false,
    Bool.false_eq_true, false_or] at hv
  omega

/-- The unit of an accepted unit-start in its queue, its payload stored and its slot OPEN (R47, R49). -/
def joined (c : Cell) (s : State) : State :=
  changeOpen (·.stored c.payload) c.slot (setAssembly c.slot .opened
    (setQueue c.slot (queueOf s c.slot ++ [UnitRec.fresh c.segment c.unitNumber]) s))

/-- The unit that a unit-start's payload makes. -/
def arrived (c : Cell) : UnitRec := (UnitRec.fresh c.segment c.unitNumber).stored c.payload

theorem arrived_eq (c : Cell) :
    arrived c = ⟨c.segment, c.unitNumber, .assembling, none, false, c.payload.length, c.payload, none⟩ := by
  simp [arrived, UnitRec.stored, UnitRec.fresh]

theorem joined_queue {c : Cell} {s : State} (hs : c.slot < 4) (hl : ∀ x ∈ queueOf s c.slot, x.state ≠ .assembling) :
    queueOf (joined c s) c.slot = queueOf s c.slot ++ [arrived c] :=
  changeOpen_last hs _ (queueOf_setQueue hs _ _) hl rfl

theorem joined_assembly {c : Cell} {s : State} (hs : c.slot < 4) : assemblyOf (joined c s) c.slot = .opened :=
  assemblyOf_setAssembly (by omega) .opened (setQueue c.slot _ s)

theorem joined_expected {c : Cell} {s : State} (hs : c.slot < 4) :
    (bankGet (joined c s).track.slots c.slot).expected = (bankGet s.track.slots c.slot).expected :=
  expected_setAssembly (by omega) .opened (setQueue c.slot _ s)

theorem joined_other {c : Cell} {s : State} {k : Nat} (h : k ≠ c.slot) : queueOf (joined c s) k = queueOf s k :=
  (queueOf_setQueue_other h _ _).trans (queueOf_setQueue_other (s := s) h _)

theorem joined_only (c : Cell) (s : State) : Only [.track] s (joined c s) :=
  (((setQueue_only _ _ s).comp (setAssembly_only _ _ _)).comp (setQueue_only _ _ _))

/-- An accepted essence unit-start leaves its unit OPEN, or closed where the cell carries its end mark (R47, R50). -/
theorem startUnit_essence {c : Cell} {s : State} (hv : c.valid = true) (hs : c.slot < 4)
    (hc : essenceCheck c.slot c.segment c.unitNumber s = none)
    (hl : ∀ x ∈ queueOf s c.slot, x.state ≠ .assembling) :
    startUnit c s = if c.unitEnd then closeUnit c.slot (joined c s) else joined c s := by
  have hfit : addPayload c.slot c.payload (setAssembly c.slot .opened
      (setQueue c.slot (queueOf s c.slot ++ [UnitRec.fresh c.segment c.unitNumber]) s)) = joined c s :=
    addPayload_fits hs (queueOf_setQueue hs _ _) hl rfl rfl (by simpa [UnitRec.fresh] using payload_fits hv)
  have haccept : acceptUnit c.slot c.segment c.unitNumber c.payload.length s =
      (none, setQueue c.slot (queueOf s c.slot ++ [UnitRec.fresh c.segment c.unitNumber]) s) := by
    rw [acceptUnit, if_pos hs, hc]
  rw [startUnit, haccept]
  show endIfMarked c.unitEnd c.slot (addPayload c.slot c.payload _) = _
  rw [hfit, endIfMarked, joined_assembly hs]
  cases c.unitEnd <;> rfl

/-- A unit without defect closes to WAITING, its slot VACANT (R50). -/
theorem closeUnit_joined {c : Cell} {s : State} (hs : c.slot < 4)
    (hl : ∀ x ∈ queueOf s c.slot, x.state ≠ .assembling) :
    queueOf (closeUnit c.slot (joined c s)) c.slot = queueOf s c.slot ++ [{ arrived c with state := .waiting }] ∧
      (∀ k, k ≠ c.slot → queueOf (closeUnit c.slot (joined c s)) k = queueOf s k) ∧
      assemblyOf (closeUnit c.slot (joined c s)) c.slot = .vacant ∧
      (bankGet (closeUnit c.slot (joined c s)).track.slots c.slot).expected =
        (bankGet s.track.slots c.slot).expected ∧
      Only [.track] s (closeUnit c.slot (joined c s)) := by
  rw [closeUnit, if_pos hs]
  refine ⟨changeOpen_last hs _ (joined_queue hs hl) hl rfl, fun k hk => ?_, assemblyOf_setAssembly (by omega) _ _, ?_,
    ((joined_only c s).comp (setQueue_only _ _ _)).comp (setAssembly_only _ _ _)⟩
  · exact (queueOf_setQueue_other hk _ _).trans (joined_other hk)
  · exact (expected_setAssembly (by omega) _ _).trans (joined_expected hs)

/-- Settles O50, by the sequence check, the acceptance and the payload of a unit-start in turn. -/
theorem essenceUnitJoinsQueue : Obligations.essence_unit_joins_queue := by
  intro s c hp hv hk hstart he ho hc hl
  have hs := slot_of_essence hv hk
  obtain ⟨w, hw⟩ : ∃ w, w = inSequence c.slot c.seqNumber s := ⟨_, rfl⟩
  have hwo : Only [.track, .link, .reports] s w := hw ▸ inSequence_only he
  have hqueues : ∀ k, queueOf w k = queueOf s k := fun k => by rw [queueOf, hw, inSequence_queues he, queueOf]
  have hexp : (bankGet w.track.slots c.slot).expected = some ((c.seqNumber + 1) % 65536) := by
    rw [hw, inSequence_slot (by omega) he]
  have hcount : w.link.counters = s.link.counters := hw ▸ inSequence_counters he
  have hcheck : essenceCheck c.slot c.segment c.unitNumber w = none := by
    rw [essenceCheck_congr _ _ _ (hwo.eq .seq (by decide)) (hwo.eq .showList (by decide))
      (by rw [hw]; exact inSequence_queues he) (hwo.eq .engine (by decide))]
    exact hc
  have hwl : ∀ x ∈ queueOf w c.slot, x.state ≠ .assembling := by rwa [hqueues]
  have hexec : exec (.essence c) s = .next (startUnit c w) := by
    rw [show exec (.essence c) s = .next (receiveCell c s) from next_powered hp _,
      receiveCell_starts hv (.inl hk) hstart (by omega) he ho, hw]
  have whole : ∀ t : State, Only [.track] w t → Only [.track, .text, .link, .reports] s t ∧ t.text = s.text ∧
      t.link.counters = s.link.counters := fun t ht =>
    ⟨(hwo.trans ht).mono (by decide), (hwo.trans ht).eq .text (by decide),
      (congrArg LinkReceiver.counters (ht.eq .link (by decide))).trans hcount⟩
  rw [hexec, startUnit_essence hv hs hcheck hwl]
  cases hend : c.unitEnd with
  | false =>
    obtain ⟨honly, htext, hcounters⟩ := whole _ (joined_only c w)
    refine ⟨joined c w, rfl, honly, htext, ?_, fun k hk => (joined_other hk).trans (hqueues k), joined_assembly hs,
      (joined_expected hs).trans hexp, hcounters⟩
    rw [joined_queue hs hwl, hqueues, arrived_eq]
    rfl
  | true =>
    obtain ⟨hqueue, hother, hvacant, hnext, hclose⟩ := closeUnit_joined hs hwl
    obtain ⟨honly, htext, hcounters⟩ := whole _ hclose
    refine ⟨closeUnit c.slot (joined c w), rfl, honly, htext, ?_, fun k hk => (hother k hk).trans (hqueues k), hvacant,
      hnext.trans hexp, hcounters⟩
    rw [hqueue, hqueues, arrived_eq]
    rfl

/-! ### A resource joins the text store -/

/-- With room, a resource of a name the store does not hold joins its end (R120). -/
theorem createResource_new {slot seg id len : Nat} {s : State} (hf : findResource s seg slot id = none)
    (hentries : 0 < freeEntries s) (hbytes : len ≤ freeBytes s) :
    createResource slot seg id len s = (none, setStore (s.text.store ++ [Resource.fresh seg slot id]) s) := by
  have hfilter : s.text.store.filter (fun r => !r.named seg slot id) = s.text.store := by
    refine List.filter_eq_self.mpr fun r hr => ?_
    have h := List.find?_eq_none.mp hf r hr
    simpa using h
  have hroom : ¬ (freeEntries s = 0 ∨ freeBytes s < len) := by omega
  have hsame : setStore s.text.store s = s := rfl
  rw [createResource, hf]
  dsimp only [Option.any_none]
  rw [hfilter, hsame, if_neg Bool.false_ne_true, if_neg hroom]

/-- A payload that fits is stored in the open resource, the last of the store (R49, R121). -/
theorem addPayload_resource {slot : Nat} (hs : ¬ slot < 4) {s : State} {l : List Resource} {r : Resource} {p : List Byte}
    (hq : s.text.store = l ++ [r]) (hl : ∀ x ∈ l, x.slot = slot → x.state ≠ .assembling) (hr : r.slot = slot)
    (hu : r.state = .assembling) (ho : r.overlong = false) (hp : r.storedLen + p.length ≤ unitLimit slot)
    (hb : p.length ≤ freeBytes s) : addPayload slot p s = setStore (l ++ [r.stored p]) s := by
  have hfind : s.text.store.find? (fun x => x.slot == slot && x.state == .assembling) = some r := by
    rw [hq, List.find?_append, List.find?_eq_none.mpr fun x hx => by simpa using hl x hx]
    simp [hr, hu]
  have hmap : s.text.store.map (fun x => if x.slot = slot ∧ x.state = .assembling then x.stored p else x) =
      l ++ [r.stored p] := by
    rw [hq, List.map_append, List.map_singleton, if_pos ⟨hr, hu⟩]
    refine congrArg (· ++ [r.stored p]) ?_
    conv_rhs => rw [← List.map_id l]
    exact List.map_congr_left fun x hx => if_neg fun h => hl x hx h.1 h.2
  rw [addPayload, if_neg hs, addResPayload, hfind]
  show (if _ then _ else _) = _
  rw [if_neg (by simp [ho]), if_neg (Nat.not_lt.mpr hp), if_neg (Nat.not_lt.mpr hb), changeOpenRes, hmap]

/-- A new resource holds no bytes yet, so the free bytes are as before it joined. -/
theorem freeBytes_joined (seg slot id : Nat) (a : Assembly) (s : State) :
    freeBytes (setAssembly slot a (setStore (s.text.store ++ [Resource.fresh seg slot id]) s)) = freeBytes s := by
  have reads : freeBytes (setAssembly slot a (setStore (s.text.store ++ [Resource.fresh seg slot id]) s)) =
      Config.storeBytes - ((s.text.store ++ [Resource.fresh seg slot id]).map (·.storedLen)).sum - (heldRoom s).2 := rfl
  rw [reads, List.map_append, List.sum_append]
  rfl

/-- An accepted resource unit-start without end mark leaves its resource ARRIVING with its payload (R51, R120). -/
theorem startUnit_resource {c : Cell} {s : State} (hv : c.valid = true) (hs : ¬ c.slot < 4) (hend : c.unitEnd = false)
    (hc : resourceCheck c.slot c.segment s = none) (hf : findResource s c.segment c.slot c.unitNumber = none)
    (hl : ∀ x ∈ s.text.store, x.slot = c.slot → x.state ≠ .assembling) (hentries : 0 < freeEntries s)
    (hbytes : c.payload.length ≤ freeBytes s) :
    startUnit c s = setStore (s.text.store ++ [(Resource.fresh c.segment c.slot c.unitNumber).stored c.payload])
      (setAssembly c.slot .opened (setStore (s.text.store ++ [Resource.fresh c.segment c.slot c.unitNumber]) s)) := by
  have haccept : acceptUnit c.slot c.segment c.unitNumber c.payload.length s =
      (none, setStore (s.text.store ++ [Resource.fresh c.segment c.slot c.unitNumber]) s) := by
    rw [acceptUnit, if_neg hs, hc]
    exact createResource_new hf hentries hbytes
  rw [startUnit, haccept]
  show endIfMarked c.unitEnd c.slot (addPayload c.slot c.payload _) = _
  rw [hend, addPayload_resource hs rfl hl rfl rfl rfl (by simpa [Resource.fresh] using payload_fits hv)
    (by rw [freeBytes_joined]; exact hbytes)]
  rfl

/-- Settles O51, by the sequence check, the acceptance and the payload of a resource's unit-start in turn. -/
theorem resourceJoinsTextStore : Obligations.resource_joins_text_store := by
  intro s c hp hv hk hstart hend he ho hc hf hl hentries hbytes
  have hslot := slot_of_resource hv hk
  have hs : ¬ c.slot < 4 := by omega
  obtain ⟨w, hw⟩ : ∃ w, w = inSequence c.slot c.seqNumber s := ⟨_, rfl⟩
  have hwo : Only [.track, .link, .reports] s w := hw ▸ inSequence_only he
  have htext : w.text = s.text := hwo.eq .text (by decide)
  have hengine : w.engine = s.engine := hwo.eq .engine (by decide)
  have hqueues : w.track.queues = s.track.queues := hw ▸ inSequence_queues he
  have hcheck : resourceCheck c.slot c.segment w = none := by
    rw [resourceCheck_congr _ _ (hwo.eq .seq (by decide)) (hwo.eq .showList (by decide))]
    exact hc
  have hheld : heldRoom w = heldRoom s := by rw [heldRoom, heldRoom, hengine]
  have hstartUnit := startUnit_resource (s := w) hv hs hend hcheck (by rw [findResource, htext]; exact hf)
    (by rw [htext]; exact hl) (by rw [freeEntries, htext, hheld]; exact hentries)
    (by rw [freeBytes, htext, hheld]; exact hbytes)
  have hexec : exec (.resource c) s = .next (startUnit c w) := by
    rw [show exec (.resource c) s = .next (receiveCell c s) from next_powered hp _,
      receiveCell_starts hv (.inr hk) hstart (by omega) he ho, hw]
  refine ⟨_, hexec, ?_, ?_, ?_, ?_⟩
  · rw [hstartUnit]
    exact (hwo.trans (((setStore_only _ w).trans (setAssembly_only _ _ _)).trans (setStore_only _ _))).mono (by decide)
  · rw [hstartUnit, htext]
    simp only [setStore, Resource.stored, Resource.fresh, List.nil_append, Nat.zero_add]
    rfl
  · rw [hstartUnit]
    exact hqueues
  · rw [hstartUnit]
    exact assemblyOf_setAssembly (by omega) .opened (setStore _ w)

end Sys2Proof.Machine
end

section
/-! PROOF. The sample instant: the five stages of an output's sample, its ring and the sample sent (R108, R114, R116). -/

namespace Sys2Proof.Machine

/-- Stages 2 to 4 are the quotients rounded half up (R114). -/
theorem stage4_eq {x t m r b c d : Int} (hb : 16384 * b ≤ x * t + 8192) (hb' : x * t + 8192 < 16384 * (b + 1))
    (hc : 16384 * c ≤ b * m + 8192) (hc' : b * m + 8192 < 16384 * (c + 1))
    (hd : 256 * d ≤ c * r + 128) (hd' : c * r + 128 < 256 * (d + 1)) : stage4 x t m r = d := by
  have e1 : (x * t + 8192) / 16384 = b := by omega
  have e2 : (b * m + 8192) / 16384 = c := by omega
  have e3 : (c * r + 128) / 256 = d := by omega
  rw [stage4, e1, e2, e3]

/-- The place read lies the delay in force behind the write index (R116). -/
theorem readIndex_eq {q : SoundEngine} (hw : q.writeIndex < 32768) (hd : q.delay ≤ 19200) :
    q.readIndex = (if q.delay = 0 then q.writeIndex else (q.writeIndex + 32768 - q.delay) % 32768) ∧
      (q.delay ≠ 0 → q.readIndex ≠ q.writeIndex) := by
  have hr : q.readIndex = (q.writeIndex + 32768 - q.delay) % 32768 := rfl
  rw [hr]
  refine ⟨?_, fun h => by omega⟩
  split
  · rename_i h
    omega
  · rfl

/-- The rings after an instant: the sample made at the write index, every other place as it was (R116). -/
theorem emit_ring {q : SoundEngine} (running : Bool) (fade : Nat) (h : RingsHold q) {i : Nat} (hi : i < 18) (j : Nat) :
    ringGet (bankGet (q.emit running fade).rings i) j =
      if j = q.writeIndex then clamp24 (q.made fade i) else ringGet (bankGet q.rings i) j := by
  have hring : bankGet (q.emit running fade).rings i =
      ringSet (bankGet q.rings i) q.writeIndex (clamp24 (q.made fade i)) := bankGet_of 18 _ i hi
  have hwf : ringWfFrom 0 (bankGet q.rings i) = true := h.rings _ (bankGet_mem q.rings i hi)
  rw [hring]
  split
  · rename_i hj
    rw [hj]
    exact ringGet_set_same _ 0 _ _ hwf
  · rename_i hj
    exact ringGet_set_other _ 0 _ _ _ hwf hj

/-- The sample sent is that of the delay in force, the one just made where there is no delay (R116). -/
theorem emit_out {q : SoundEngine} (running : Bool) (fade : Nat) (h : RingsHold q) (hd : q.delay ≤ 19200) {i : Nat}
    (hi : i < 18) : bankGet (q.emit running fade).out i = if q.delay = 0 then clamp24 (q.made fade i)
      else ringGet (bankGet q.rings i) ((q.writeIndex + 32768 - q.delay) % 32768) := by
  have hout : bankGet (q.emit running fade).out i = ringGet (bankGet (q.emit running fade).rings i) q.readIndex :=
    bankGet_of 18 _ i hi
  obtain ⟨hread, hne⟩ := readIndex_eq h.writeIndex hd
  rw [hout, emit_ring running fade h hi]
  split
  · rename_i hj
    have hz : q.delay = 0 := by
      by_contra hnz
      exact hne hnz hj
    rw [if_pos hz]
  · rename_i hj
    have hz : q.delay ≠ 0 := fun hz => hj (by rw [hread, if_pos hz])
    rw [if_neg hz, hread, if_neg hz]

theorem exec_sampleInstant {s : State} (hp : s.supplies.main = true)
    (hc : s.seq.clockRunning = false ∨ s.sound.instant < contextSamples s.seq) :
    exec .sampleInstant s = .next (sampleTick s) := by
  have hdue : sampleDue s = true := by
    rcases hc with hc | hc <;> simp [sampleDue, powered, hp, hc]
  show Host.Outcome.next (if sampleDue s then sampleTick s else s) = _
  rw [if_pos hdue]

/-- The Sound Engine of a sample instant, but for the flag of the segment's first clip (R115). -/
theorem sampleTick_sound (s : State) : ∃ b, (sampleTick s).sound =
    { s.sound.stepGains.emit s.seq.clockRunning (instantFade s) with clipReported := b } := ⟨_, rfl⟩

/-- Settles O37, by the ring's places, the place read and the gains' steps. -/
theorem sampleInstantMakesAndSends : Obligations.sample_instant_makes_and_sends := by
  refine ⟨fun x t m r b c d hb hb' hc hc' hd hd' => ⟨stage4_eq hb hb' hc hc' hd hd', rfl⟩, ?_⟩
  intro s hp hc h hdelay q y w
  obtain ⟨b, hsound⟩ := sampleTick_sound s
  have hq : RingsHold q := ⟨h.rings, h.writeIndex⟩
  refine ⟨_, exec_sampleInstant hp hc, sampleTick_only s, by rw [hsound]; rfl, by rw [hsound]; rfl, fun i hi => ?_⟩
  rw [hsound]
  refine ⟨bankGet_of 18 _ i hi, fun j _ => ?_, ?_, clamp24_range _⟩
  · exact (emit_ring s.seq.clockRunning (instantFade s) hq hi j)
  · exact (emit_out s.seq.clockRunning (instantFade s) hq hdelay hi)

end Sys2Proof.Machine
end

section
/-! PROOF. Subtitles: the display slots released and filled, the comparator moved, the opacity of a cue (R125, R127, R130). -/

namespace Sys2Proof.Machine

/-! ### Reports raised alike -/

/-- Two states with the same reports whose next report would carry the same time, showing and position. -/
structure ReportsAlike (s t : State) : Prop where
  reports : t.reports = s.reports
  clock : t.clock = s.clock
  seq : t.seq = s.seq
  showing : showingNow t = showingNow s

theorem ReportsAlike.refl (s : State) : ReportsAlike s s := ⟨rfl, rfl, rfl, rfl⟩

theorem showingNow_of_feeds {s t : State} (h : Feeds s t) : showingNow t = showingNow s := by
  simp only [showingNow, h.number, h.status]

/-- The same report raised in two such states leaves two such states, whatever the showing was fed. -/
theorem ReportsAlike.raise {s t u : State} (h : ReportsAlike s t) (hu : Only [.recorder, .caption, .text] t u)
    (hf : Feeds t u) (k : ReportKind) (a b : Nat) :
    ReportsAlike (Sys2Proof.Machine.raise k a b s) (Sys2Proof.Machine.raise k a b u) := by
  have hclock : u.clock = s.clock := (hu.eq .clock (by decide)).trans h.clock
  have hseq : u.seq = s.seq := (hu.eq .seq (by decide)).trans h.seq
  have hreports : u.reports = s.reports := (hu.eq .reports (by decide)).trans h.reports
  have hshowing : showingNow u = showingNow s := (showingNow_of_feeds hf).trans h.showing
  refine ⟨?_, hclock, hseq, hshowing⟩
  show u.reports.offer _ = s.reports.offer _
  rw [hreports, show stamped k (showingNow u) a b u = stamped k (showingNow s) a b s by
    simp only [stamped, boothNow, hclock, hseq, hshowing]]

/-! ### Admission to the display slots (R127) -/

/-- The cues dropped of the record in progress. -/
def dropped (s : State) : Nat := s.recorder.record.cuesDropped

theorem dropped_countCueDropped {s : State} (h : s.recorder.status = .opened) :
    dropped (countCueDropped s) = min 4294967295 (dropped s + 1) := by
  show (s.recorder.feed _).record.cuesDropped = _
  rw [Recorder.feed, if_pos h]
  rfl

/-- The lowest free display slot is the first that holds nothing. -/
theorem freeDisplay_lowest {t : TextEngine} {i : Nat} (hi : i < 4) (hfree : bankGet t.display i = none)
    (hbusy : ∀ j, j < i → bankGet t.display j ≠ none) : freeDisplay t = some i := by
  rw [freeDisplay, List.find?_range_eq_some]
  exact ⟨by rw [hfree]; rfl, List.mem_range.mpr hi, fun j hj => by simpa [← Option.isSome_iff_ne_none] using hbusy j hj⟩

theorem freeDisplay_none {t : TextEngine} (h : ∀ i, i < 4 → bankGet t.display i ≠ none) : freeDisplay t = none := by
  refine List.find?_eq_none.mpr fun i hi => ?_
  simpa using h i (List.mem_range.mp hi)

/-- A cue admitted to a free slot: nothing but the display and the missing resources change (R127, R129). -/
structure Admits (s t : State) : Prop where
  alike : ReportsAlike s t
  dropped : dropped t = dropped s
  status : t.recorder.status = s.recorder.status

theorem Admits.trans {s t u : State} (h : Admits s t) (k : Admits t u) : Admits s u :=
  ⟨⟨k.alike.reports.trans h.alike.reports, k.alike.clock.trans h.alike.clock, k.alike.seq.trans h.alike.seq,
    k.alike.showing.trans h.alike.showing⟩, k.dropped.trans h.dropped, k.status.trans h.status⟩

theorem admitT0_free {s : State} {c : Cue} {i : Nat} (h : freeDisplay s.text = some i) :
    (admitT0 s c).text.display = bankSet s.text.display i (some ⟨c, false, false⟩) ∧ Admits s (admitT0 s c) := by
  have missing : ∀ u : State, dropped (countMissing u) = dropped u := by
    intro u
    show (u.recorder.feed _).record.cuesDropped = _
    rw [Recorder.feed]
    split <;> rfl
  rw [admitT0, h]
  dsimp only
  split
  · exact ⟨rfl, ⟨rfl, rfl, rfl, rfl⟩, rfl, rfl⟩
  · have hf := countMissing_feeds (s.withText { s.text with
      display := bankSet s.text.display i (some ⟨c, false, false⟩) })
    exact ⟨rfl, ⟨rfl, rfl, rfl, showingNow_of_feeds hf⟩, missing _, hf.status⟩

theorem admitT0_full {s : State} (c : Cue) (h : ∀ i, i < 4 → bankGet s.text.display i ≠ none) :
    admitT0 s c = raise .cueDropped 4 c.number (countCueDropped s) := by
  rw [admitT0, freeDisplay_none h]

/-- With every slot busy each cue is dropped, counted and reported (R127). -/
theorem admits_full : ∀ (l : List Cue) {s t : State}, (∀ i, i < 4 → bankGet t.text.display i ≠ none) →
    ReportsAlike s t → (l.foldl admitT0 t).text.display = t.text.display ∧
      (t.recorder.status = .opened → dropped (l.foldl admitT0 t) = min 4294967295 (dropped t + l.length) ∨ l = []) ∧
      (l.foldl admitT0 t).reports = (l.foldl (fun a x => raise .cueDropped 4 x.number a) s).reports
  | [], _, _, _, ha => ⟨rfl, fun _ => .inr rfl, ha.reports⟩
  | c :: l, s, t, hb, ha => by
    have hf := countCueDropped_feeds t
    have hstep := ha.raise ((feedRecord_only _ t).mono (by decide)) hf .cueDropped 4 c.number
    obtain ⟨hdisplay, hdropped, hreports⟩ := admits_full l (s := raise .cueDropped 4 c.number s)
      (t := raise .cueDropped 4 c.number (countCueDropped t)) hb hstep
    rw [List.foldl_cons, List.foldl_cons, admitT0_full c hb]
    refine ⟨hdisplay, fun ho => .inl ?_, hreports⟩
    have h1 : dropped (raise .cueDropped 4 c.number (countCueDropped t)) = min 4294967295 (dropped t + 1) :=
      dropped_countCueDropped ho
    rcases hdropped (hf.status.trans ho) with e | e
    · rw [e, h1, List.length_cons]
      omega
    · rw [e]
      exact h1

/-- The display slots hold the cues of a list from the lowest on, none shown yet, and nothing more. -/
def Filled (l : List Cue) (s : State) : Prop :=
  ∀ i, i < 4 → bankGet s.text.display i = (l[i]?).map (fun x => ⟨x, false, false⟩)

/-- Cues that find room fill the slots in order (R127). -/
theorem admits_fill : ∀ (new l : List Cue) {s : State}, Filled l s → l.length + new.length ≤ 4 →
    Filled (l ++ new) (new.foldl admitT0 s) ∧ Admits s (new.foldl admitT0 s)
  | [], l, s, h, _ => ⟨by rwa [List.append_nil], .refl s, rfl, rfl⟩
  | c :: new, l, s, h, hlen => by
    rw [List.length_cons] at hlen
    have hfree : freeDisplay s.text = some l.length := by
      refine freeDisplay_lowest (by omega) ?_ fun j hj => ?_
      · rw [h _ (by omega), List.getElem?_eq_none (Nat.le_refl _)]
        rfl
      · rw [h _ (by omega), List.getElem?_eq_getElem hj]
        nofun
    obtain ⟨hdisplay, hadmits⟩ := admitT0_free (c := c) hfree
    have hfilled : Filled (l ++ [c]) (admitT0 s c) := by
      intro i hi
      rw [hdisplay]
      by_cases he : l.length = i
      · subst he
        rw [bankGet_set_same _ _ _ hi]
        simp
      · rw [bankGet_set_other _ _ _ _ he, h i hi, List.getElem?_append]
        split
        · rfl
        · rw [List.getElem?_eq_none (by omega), List.getElem?_eq_none (by simp; omega)]
    obtain ⟨hrest, hall⟩ := admits_fill new (l ++ [c]) hfilled (by rw [List.length_append, List.length_singleton]; omega)
    rw [List.foldl_cons]
    exact ⟨by rwa [List.append_assoc] at hrest, hadmits.trans hall⟩

/-! ### T0 at a boundary (R125, R127) -/

/-- The display slots released and the comparator moved, before the admission (R127). -/
def released (last u : Nat) (s : State) : State :=
  s.withText { s.text with
    display := bankMap (fun d =>
      match d with
      | some x => if x.cue.outPoint ≤ u then none else some x
      | none => none) s.text.display
    t0 := s.text.t0.moved last u }

theorem runT0_eq (last u : Nat) (s : State) :
    runT0 last u s = (admitted s.text.t0 last u).foldl admitT0 (released last u s) := rfl

/-- A display slot stays unless its cue's out is at or below the unit (R127). -/
theorem released_at (last u : Nat) (s : State) {i : Nat} (hi : i < 4) :
    bankGet (released last u s).text.display i =
      (bankGet s.text.display i).filter (fun d => decide (u < d.cue.outPoint)) := by
  have e : bankGet (released last u s).text.display i = _ := bankGet_map _ s.text.display i hi
  rw [e]
  cases bankGet s.text.display i with
  | none => rfl
  | some x =>
    by_cases h : x.cue.outPoint ≤ u
    · simp [Option.filter_some, h, Nat.not_lt.mpr h]
    · simp [Option.filter_some, h, Nat.not_le.mp h]

/-- The cues a comparator takes and displays (R127, R136). -/
theorem admitted_eq {t : CueTable} {k : Nat} (h : t.comparator = some k) (last u : Nat) :
    admitted t last u = ((t.cues.drop k).takeWhile (fun c => decide (c.inPoint ≤ u ∧ c.inPoint < last))).filter
      (fun c => decide (u < c.outPoint)) := by
  simp only [admitted, takenCues, h, Bool.decide_and]

/-- The comparator past the cues taken, or at none (R125, R127). -/
theorem moved_comparator {t : CueTable} {k : Nat} (h : t.comparator = some k) (last u : Nat) :
    (t.moved last u).comparator =
      let n := ((t.cues.drop k).takeWhile (fun c => decide (c.inPoint ≤ u ∧ c.inPoint < last))).length
      if k + n < t.cues.length then some (k + n) else none := by
  simp only [CueTable.moved, h, comparatorAt, takenCues, Bool.decide_and]

theorem moved_cues (t : CueTable) (last u : Nat) : (t.moved last u).cues = t.cues := by
  unfold CueTable.moved
  split <;> rfl

theorem runT0_table (last u : Nat) (s : State) : (runT0 last u s).text.t0 = s.text.t0.moved last u :=
  (KeepsTables.foldl _ admitT0_keepsTables _ (released last u s)).t0

/-- Cues admitted into a display that holds nothing: the first four fill it, the rest are dropped (R127). -/
theorem admits_all {new : List Cue} {s v : State} (hv : Filled [] v) (ha : Admits s v) :
    (∀ i, i < 4 → bankGet (new.foldl admitT0 v).text.display i = (new[i]?).map (fun x => ⟨x, false, false⟩)) ∧
      (new.length ≤ 4 → dropped (new.foldl admitT0 v) = dropped s) ∧
      (4 < new.length → s.recorder.status = .opened →
        dropped (new.foldl admitT0 v) = min 4294967295 (dropped s + (new.length - 4))) ∧
      (new.foldl admitT0 v).reports = ((new.drop 4).foldl (fun a x => raise .cueDropped 4 x.number a) s).reports := by
  by_cases hlen : new.length ≤ 4
  · obtain ⟨hfilled, hadmits⟩ := admits_fill new [] hv (by simp [hlen])
    have hall := ha.trans hadmits
    refine ⟨hfilled, fun _ => hall.dropped, fun h => absurd hlen (Nat.not_le.mpr h), ?_⟩
    rw [List.drop_eq_nil_of_le hlen]
    exact hall.alike.reports
  · have h4 : (new.take 4).length = 4 := by
      rw [List.length_take]
      omega
    obtain ⟨hfilled, hadmits⟩ := admits_fill (new.take 4) [] hv (by simp)
    have hall := ha.trans hadmits
    have hbusy : ∀ i, i < 4 → bankGet ((new.take 4).foldl admitT0 v).text.display i ≠ none := fun i hi => by
      rw [hfilled i hi, List.nil_append, List.getElem?_eq_getElem (by omega)]
      nofun
    obtain ⟨hdisplay, hdropped, hreports⟩ := admits_full (new.drop 4) hbusy hall.alike
    have hsplit : new.foldl admitT0 v = (new.drop 4).foldl admitT0 ((new.take 4).foldl admitT0 v) := by
      rw [← List.foldl_append, List.take_append_drop]
    rw [hsplit]
    refine ⟨fun i hi => ?_, fun h => absurd h hlen, fun _ ho => ?_, hreports⟩
    · rw [hdisplay, hfilled i hi, List.nil_append, List.getElem?_take_of_lt hi]
    · rcases hdropped (hall.status.trans ho) with e | e
      · rw [e, hall.dropped, List.length_drop]
      · have := congrArg List.length e
        rw [List.length_drop, List.length_nil] at this
        omega

/-! ### Opacity (R130) -/

theorem fadeRamp_eq (n k : Nat) : fadeRamp n k = if n ≤ k then 255 else 255 * (k + 1) / (n + 1) := by
  have h : (n = 0 ∨ n ≤ k) ↔ n ≤ k := by omega
  simp only [fadeRamp, h]

theorem fadeRamp_le (n k : Nat) : fadeRamp n k ≤ 255 := by
  rw [fadeRamp_eq]
  split
  · exact Nat.le_refl 255
  · exact Nat.div_le_of_le_mul (by rw [Nat.mul_comm]; exact Nat.mul_le_mul_right 255 (by omega))

/-- A factor of at most 255 over 255, rounded half up, does not raise an opacity, and one of 255 leaves it. -/
theorem faded_le {m op : Nat} (hm : m ≤ 255) : (m * op + 127) / 255 ≤ op := by
  have h : m * op ≤ 255 * op := Nat.mul_le_mul_right op hm
  omega

theorem faded_whole (op : Nat) : (255 * op + 127) / 255 = op := by omega

/-- Settles O38, by the release, the comparator, and the slots in turn free and busy. -/
theorem subtitlesReleasedAdmittedAndFaded : Obligations.subtitles_released_admitted_and_faded := by
  refine ⟨fun c resumed s hctx hoff => ?_, fun s last u k hk => ?_, fun s last u hn => ⟨fun i hi => ?_, ?_⟩,
    fun c u up down _ _ hup hdown => ?_⟩
  · have hu : reelUnit s.seq = c.segment.entryPoint + s.seq.offset := by rw [reelUnit, hctx]
    rw [runText, if_neg hoff, hu]
    rfl
  · intro t taken new stays
    have hnew : admitted s.text.t0 last u = new := admitted_eq hk last u
    have ht : t = new.foldl admitT0 (released last u s) := hnew ▸ runT0_eq last u s
    have hstays : ∀ i, i < 4 → bankGet (released last u s).text.display i = stays i := fun i hi => released_at last u s hi
    have hadmits : Admits s (released last u s) := ⟨⟨rfl, rfl, rfl, rfl⟩, rfl, rfl⟩
    refine ⟨(congrArg CueTable.cues (runT0_table last u s)).trans (moved_cues _ last u),
      (congrArg CueTable.comparator (runT0_table last u s)).trans (moved_comparator hk last u), fun h => ?_, fun c i h hi hfree hbusy => ?_,
      fun c more h hfree => ?_, fun hbusy h => ?_⟩
    · rw [ht, h]
      exact ⟨hstays, rfl, rfl⟩
    · obtain ⟨hdisplay, hone⟩ := admitT0_free (c := c) (freeDisplay_lowest (t := (released last u s).text) hi
        (by rw [hstays i hi]; exact hfree) fun j hj => by rw [hstays j (by omega)]; exact hbusy j hj)
      have hall := hadmits.trans hone
      rw [ht, h]
      refine ⟨?_, fun j hj hne => ?_, hall.alike.reports, hall.dropped⟩
      · rw [List.foldl_cons, List.foldl_nil, hdisplay, bankGet_set_same _ _ _ hi]
      · rw [List.foldl_cons, List.foldl_nil, hdisplay, bankGet_set_other _ _ _ _ (Ne.symm hne), hstays j hj]
    · rw [ht]
      exact admits_all (fun i hi => (hstays i hi).trans (hfree i hi)) hadmits
    · obtain ⟨hdisplay, hdropped, hreports⟩ := admits_full new (t := released last u s)
        (fun i hi => by rw [hstays i hi]; exact hbusy i hi) hadmits.alike
      rw [ht]
      exact ⟨fun i hi => by rw [hdisplay]; exact hstays i hi, fun ho => (hdropped ho).resolve_right h, hreports⟩
  · have hnone : admitted s.text.t0 last u = [] := by simp only [admitted, takenCues, hn, List.filter_nil]
    rw [runT0_eq, hnone]
    exact released_at last u s hi
  · rw [runT0_table, CueTable.moved, hn]
  · have hop : opacityAt c u = (min up down * c.opacity + 127) / 255 := by
      rw [opacityAt, fadeRamp_eq, fadeRamp_eq, ← hup, ← hdown]
    have hle : min up down ≤ 255 := (min_le_left up down).trans (by rw [hup, ← fadeRamp_eq]; exact fadeRamp_le _ _)
    refine ⟨hop, hle, fun _ => hop ▸ faded_le hle, fun h1 h2 => ?_⟩
    rw [hop, h1, h2, min_self]
    exact faded_whole c.opacity

end Sys2Proof.Machine
end

section
/-! PROOF. Captions: the ring's messages, the display list, and the bytes on the line (R61, R133 to R138). -/

namespace Sys2Proof.Machine

/-! ### Messages that join the ring or do not (R134, R135) -/

/-- The ring of a caption line after a message joined it. -/
def pushed (m : List Byte) (x : CaptionLine) : CaptionLine := { x with ring := x.ring ++ m }

theorem markShown_caption (d : Displayed) (s : State) : (markShown d s).2.caption = s.caption :=
  (markShown_only d s).eq .caption (by decide)

theorem markShown_reports (d : Displayed) (s : State) : (markShown d s).2.reports = s.reports :=
  (markShown_only d s).eq .reports (by decide)

/-- A SHOW message that fits joins the ring whole (R134). -/
theorem queueShow_whole {d : Displayed} {s : State} (h : s.caption.ring.length + (6 + d.cue.text.length) ≤ 1024) :
    (queueShow d s).1 = { d with shown := true } ∧ (queueShow d s).2.reports = s.reports ∧
      (queueShow d s).2.caption = pushed (showMessage d.cue.number false d.cue.text) s.caption := by
  have hf : 6 + d.cue.text.length ≤ captionFree s := by
    show _ ≤ 1024 - s.caption.ring.length
    omega
  rw [queueShow]
  rw [if_pos hf]
  exact ⟨rfl, markShown_reports _ _, markShown_caption _ _⟩

/-- A report raised when only the ring and the record's figures changed is the report raised before. -/
theorem raise_reports_of_caption {s t : State} (h : Only [.recorder, .caption, .text] s t) (hf : Feeds s t)
    (k : ReportKind) (a b : Nat) : (raise k a b t).reports = (raise k a b s).reports :=
  ((ReportsAlike.refl s).raise h hf k a b).reports

/-- A SHOW message with 8 or more free bytes that does not fit is cut to fill the ring (R134). -/
theorem queueShow_cut {d : Displayed} {s : State} (h8 : s.caption.ring.length + 8 ≤ 1024)
    (h : 1024 < s.caption.ring.length + (6 + d.cue.text.length)) :
    (queueShow d s).1 = { d with shown := true } ∧
      (queueShow d s).2.reports =
        (raise .captionTruncated d.cue.number (1024 - s.caption.ring.length - 6) s).reports ∧
      (queueShow d s).2.caption =
        pushed (showMessage d.cue.number true (d.cue.text.take (1024 - s.caption.ring.length - 6))) s.caption := by
  have hfree : captionFree s = 1024 - s.caption.ring.length := rfl
  rw [queueShow]
  rw [hfree, if_neg (by omega), if_pos (by omega)]
  refine ⟨rfl, (markShown_reports _ _).trans ?_, markShown_caption _ _⟩
  exact raise_reports_of_caption ((pushCaption_only _ s).mono (by decide)) (.refl s) _ _ _

/-- A SHOW message with fewer than 8 free bytes that does not fit is dropped (R134). -/
theorem queueShow_dropped {d : Displayed} {s : State} (h8 : 1024 < s.caption.ring.length + 8)
    (h : 1024 < s.caption.ring.length + (6 + d.cue.text.length)) :
    queueShow d s = (d, raise .cueDropped 5 d.cue.number (countCueDropped s)) := by
  have hfree : captionFree s = 1024 - s.caption.ring.length := rfl
  rw [queueShow]
  rw [hfree, if_neg (by omega), if_neg (by omega)]

/-- What a SHOW message makes of its cue and of the ring is read from the ring and the cue alone. -/
theorem queueShow_congr {s t : State} (d : Displayed) (h : t.caption = s.caption) :
    (queueShow d t).1 = (queueShow d s).1 ∧ (queueShow d t).2.caption = (queueShow d s).2.caption := by
  by_cases hw : s.caption.ring.length + (6 + d.cue.text.length) ≤ 1024
  · obtain ⟨h1, -, h2⟩ := queueShow_whole hw
    obtain ⟨h3, -, h4⟩ := queueShow_whole (s := t) (by rw [h]; exact hw)
    rw [h1, h2, h3, h4, h]
    exact ⟨rfl, rfl⟩
  · by_cases h8 : s.caption.ring.length + 8 ≤ 1024
    · obtain ⟨h1, -, h2⟩ := queueShow_cut h8 (Nat.not_le.mp hw)
      obtain ⟨h3, -, h4⟩ := queueShow_cut (s := t) (d := d) (by rw [h]; exact h8) (by rw [h]; exact Nat.not_le.mp hw)
      rw [h1, h2, h3, h4, h]
      exact ⟨rfl, rfl⟩
    · rw [queueShow_dropped (Nat.not_le.mp h8) (Nat.not_le.mp hw),
        queueShow_dropped (s := t) (by rw [h]; exact Nat.not_le.mp h8) (by rw [h]; exact Nat.not_le.mp hw)]
      exact ⟨rfl, h⟩

theorem queueClear_fits {s : State} (n : Nat) (h : s.caption.ring.length + 4 ≤ 1024) :
    queueClear n s = s.withCaption (pushed (clearMessage n) s.caption) := by
  have hf : 4 ≤ captionFree s := by
    show _ ≤ 1024 - s.caption.ring.length
    omega
  rw [queueClear, if_pos hf]
  rfl

theorem queueClear_dropped {s : State} (n : Nat) (h : 1024 < s.caption.ring.length + 4) :
    queueClear n s = countCueDropped s := by
  have hf : ¬ 4 ≤ captionFree s := by
    show ¬ _ ≤ 1024 - s.caption.ring.length
    omega
  rw [queueClear, if_neg hf]

/-! ### The caption display list (R136, R137) -/

/-- The CLEAR messages of the cues of a list that are not withdrawn. -/
def clearsOf (l : List Displayed) : List Byte :=
  (l.filter (fun d => !d.withdrawn)).flatMap (fun d => clearMessage d.cue.number)

/-- Where all of them fit, the cues of a list not withdrawn are cleared in order, nothing else changing. -/
theorem clears_fit : ∀ (l : List Displayed) (s : State), s.caption.ring.length + (clearsOf l).length ≤ 1024 →
    l.foldl clearIfShowing s = s.withCaption (pushed (clearsOf l) s.caption)
  | [], s, _ => by
    rw [clearsOf, List.filter_nil, List.flatMap_nil, pushed, List.append_nil]
    rfl
  | d :: l, s, h => by
    rw [List.foldl_cons]
    cases hw : d.withdrawn with
    | true =>
      have hskip : clearsOf (d :: l) = clearsOf l := by simp [clearsOf, hw]
      rw [clearIfShowing, if_pos hw, hskip]
      exact clears_fit l s (by rwa [hskip] at h)
    | false =>
      have hone : clearsOf (d :: l) = clearMessage d.cue.number ++ clearsOf l := by simp [clearsOf, hw]
      have hlen : (clearMessage d.cue.number).length = 4 := rfl
      rw [hone, List.length_append, hlen] at h
      rw [clearIfShowing, if_neg (by simp [hw]), queueClear_fits _ (by omega), clears_fit l _ ?_, hone]
      · simp only [pushed, State.withCaption, List.append_assoc]
      · show (s.caption.ring ++ clearMessage d.cue.number).length + _ ≤ 1024
        rw [List.length_append, hlen]
        omega

/-- The SHOW messages of the withdrawn cues of a list. -/
def showsOf (l : List Displayed) : List Byte :=
  (l.filter (fun d => d.withdrawn)).flatMap (fun d => showMessage d.cue.number false d.cue.text)

/-- Where all of them fit, the withdrawn cues of a list are shown again in order (R137). -/
theorem shows_fit : ∀ (l : List Displayed) (s : State), s.caption.ring.length + (showsOf l).length ≤ 1024 →
    (reshowCaptions l s).1 = l.map (fun d => if d.withdrawn then { d with withdrawn := false, shown := true } else d) ∧
      (reshowCaptions l s).2.caption = pushed (showsOf l) s.caption
  | [], s, _ => by
    refine ⟨rfl, ?_⟩
    rw [showsOf, List.filter_nil, List.flatMap_nil, pushed, List.append_nil]
    rfl
  | d :: l, s, h => by
    cases hw : d.withdrawn with
    | false =>
      have hskip : showsOf (d :: l) = showsOf l := by simp [showsOf, hw]
      obtain ⟨h1, h2⟩ := shows_fit l s (by rwa [hskip] at h)
      rw [reshowCaptions, hskip, List.map_cons, ← h1, ← h2]
      simp [hw]
    | true =>
      have hone : showsOf (d :: l) = showMessage d.cue.number false d.cue.text ++ showsOf l := by simp [showsOf, hw]
      rw [hone, List.length_append, length_showMessage] at h
      obtain ⟨hd, -, hc⟩ := queueShow_whole (d := { d with withdrawn := false }) (s := s) (by show _ + (6 + d.cue.text.length) ≤ _; omega)
      obtain ⟨h1, h2⟩ := shows_fit l (queueShow { d with withdrawn := false } s).2 (by
        rw [hc]
        show (s.caption.ring ++ showMessage d.cue.number false d.cue.text).length + _ ≤ 1024
        rw [List.length_append, length_showMessage]
        omega)
      rw [reshowCaptions, hone, List.map_cons]
      simp only [hw, if_true, h1, h2, hc, hd, pushed, List.append_assoc, and_self]

/-! ### T1 at a boundary (R136) -/

/-- The caption display list released, and at a resume shown again, before the admission (R136, R137). -/
def captionsReleased (u : Nat) (resumed : Bool) (s : State) : State :=
  let leaving := s.text.captions.filter (fun d => decide (d.cue.outPoint ≤ u))
  let staying := s.text.captions.filter (fun d => !decide (d.cue.outPoint ≤ u))
  let s1 := leaving.foldl clearIfShowing s
  let r := if resumed then reshowCaptions staying s1 else (staying, s1)
  setCaptions r.1 r.2

/-- The state in which T1 admits its cues. -/
def admittingT1 (last u : Nat) (resumed : Bool) (s : State) : State :=
  (captionsReleased u resumed s).withText { (captionsReleased u resumed s).text with
    t1 := (captionsReleased u resumed s).text.t1.moved last u }

theorem captionsReleased_t1 (u : Nat) (resumed : Bool) (s : State) :
    (captionsReleased u resumed s).text.t1 = s.text.t1 := by
  have hc : ∀ l : List Displayed, (l.foldl clearIfShowing s).text = s.text := fun l =>
    (Only.foldl _ clearIfShowing_only l s).eq .text (by decide)
  cases resumed with
  | false => exact (setCaptions_keepsTables _ _).t1.trans (congrArg TextEngine.t1 (hc _))
  | true =>
    have hr := fun l v => (reshowCaptions_only l v).eq .text (by decide)
    exact (setCaptions_keepsTables _ _).t1.trans (congrArg TextEngine.t1 ((hr _ _).trans (hc _)))

theorem runT1_eq (last u : Nat) (resumed : Bool) (s : State) :
    runT1 last u resumed s = (admitted s.text.t1 last u).foldl (admitT1 false) (admittingT1 last u resumed s) := by
  rw [← captionsReleased_t1 u resumed s]
  rfl

theorem runT1_table (last u : Nat) (resumed : Bool) (s : State) :
    (runT1 last u resumed s).text.t1 = s.text.t1.moved last u := by
  rw [runT1_eq, (KeepsTables.foldl _ (admitT1_keepsTables false) _ _).t1, ← captionsReleased_t1 u resumed s]
  rfl

/-- The cues admitted, a comparator at none taking no cue (R125). -/
theorem admitted_from (t : CueTable) (last u : Nat) :
    admitted t last u = ((t.cues.drop (t.comparator.getD t.cues.length)).takeWhile
      (fun c => decide (c.inPoint ≤ u ∧ c.inPoint < last))).filter (fun c => decide (u < c.outPoint)) := by
  cases h : t.comparator with
  | some k => exact admitted_eq h last u
  | none => simp [admitted, takenCues, h]

theorem staying_eq (l : List Displayed) (u : Nat) :
    l.filter (fun d => !decide (d.cue.outPoint ≤ u)) = l.filter (fun d => decide (u < d.cue.outPoint)) :=
  List.filter_congr fun d _ => by rw [← decide_not, decide_eq_decide]; exact Nat.not_le

/-- A list no cue of which is out yet stays whole. -/
theorem staying_of_none {l : List Displayed} {u : Nat} (h : l.filter (fun d => decide (d.cue.outPoint ≤ u)) = []) :
    l.filter (fun d => !decide (d.cue.outPoint ≤ u)) = l :=
  List.filter_eq_self.mpr fun d hd => by simpa using List.filter_eq_nil_iff.mp h d hd

/-- A cue admitted in display joins the list's end with its SHOW message (R136). -/
theorem admitT1_shown (s : State) (c : Cue) :
    (admitT1 false s c).text.captions = s.text.captions ++ [(queueShow ⟨c, false, false⟩ s).1] ∧
      (admitT1 false s c).caption = (queueShow ⟨c, false, false⟩ s).2.caption := by
  have e : (queueShow ⟨c, false, false⟩ s).2.text = s.text := (queueShow_only _ s).eq .text (by decide)
  refine ⟨?_, rfl⟩
  rw [← e]
  rfl

/-- The lines and lists that freeing resources leaves (R123). -/
theorem freeResources_captions (gone : Resource → Bool) (s : State) :
    (freeResources gone s).text.captions = s.text.captions ∧ (freeResources gone s).caption = s.caption := by
  have abandoned : ∀ (is : UnpackJob → Bool) (n : Nat) (u : State), (markAbandoned is n u).text = u.text := fun is n u =>
    (markAbandoned_only is n u).eq .text (by decide)
  have skipped : ∀ (b : Bool) (slot : Nat) (u : State), (if b then setAssembly slot .skipping u else u).text = u.text := by
    intro b slot u
    cases b <;> rfl
  refine ⟨?_, (freeResources_only gone s).eq .caption (by decide)⟩
  rw [freeResources]
  refine (congrArg TextEngine.captions ((abandoned _ _ _).trans ((skipped _ _ _).trans (skipped _ _ _)))).trans ?_
  rfl

theorem clearDisplays_fit {s : State} (h : s.caption.ring.length + (clearsOf s.text.captions).length ≤ 1024) :
    (clearDisplays s).text.captions = [] ∧ (clearDisplays s).text.t1 = ⟨[], none, false⟩ ∧
      (clearDisplays s).caption = pushed (clearsOf s.text.captions) s.caption := by
  refine ⟨rfl, rfl, ?_⟩
  show (s.text.captions.foldl clearIfShowing s).caption = _
  rw [clears_fit _ _ h]
  rfl

/-! ### The line (R61, R133) -/

theorem captionFrame_places (b : Byte) : (captionFrame b).length = 10 ∧ (captionFrame b).head? = some .start ∧
    (∀ k, k < 8 → (captionFrame b)[k + 1]? = some (.data (b.getLsbD k))) ∧ (captionFrame b)[9]? = some .stop := by
  refine ⟨rfl, rfl, fun k hk => ?_, rfl⟩
  simp [captionFrame, List.getElem?_append, hk]

theorem exec_byteTime {s : State} (hp : s.supplies.main = true) :
    exec .byteTime s = .next (s.withCaption s.caption.byteTime) := next_powered hp _

/-- Settles O39: the ring's messages, the display list's walks, and the line's frame. -/
theorem captionsQueuedAndSent : Obligations.captions_queued_and_sent := by
  refine ⟨fun s hp => ⟨fun b l hr => ?_, fun hr => ?_⟩, fun l b => ?_, fun s d => ?_, fun s n => ⟨?_, fun h => ?_⟩,
    fun s last u => ?_⟩
  · rw [exec_byteTime hp, CaptionLine.byteTime, hr]
    rfl
  · rw [exec_byteTime hp, CaptionLine.byteTime, hr]
    rfl
  · obtain ⟨hlen, hstart, hdata, hstop⟩ := captionFrame_places b
    exact ⟨hlen, hstart, hdata, hstop, rfl⟩
  · intro n f r
    refine ⟨fun h => ?_, fun h8 h => ?_, fun h8 h => ?_⟩
    · obtain ⟨h1, h2, h3⟩ := queueShow_whole (d := d) (s := s) (by omega)
      exact ⟨h1, h2, congrArg CaptionLine.ring h3⟩
    · obtain ⟨h1, h2, h3⟩ := queueShow_cut (d := d) (s := s) (by omega) (by omega)
      have hlen : (d.cue.text.take (f - 6)).length = f - 6 := by
        rw [List.length_take]
        omega
      have hring : r.2.caption.ring = s.caption.ring ++
          ([2] ++ be 2 d.cue.number ++ [1] ++ be 1 (f - 6) ++ d.cue.text.take (f - 6) ++ [3]) := by
        rw [show r.2.caption = _ from h3]
        show s.caption.ring ++ showMessage d.cue.number true (d.cue.text.take (f - 6)) = _
        rw [showMessage, hlen]
        rfl
      refine ⟨h1, h2, ?_, hring⟩
      rw [show r.2.caption = _ from h3]
      show (s.caption.ring ++ showMessage d.cue.number true (d.cue.text.take (f - 6))).length = _
      rw [List.length_append, length_showMessage, hlen]
      omega
    · have hr : r = _ := queueShow_dropped (d := d) (s := s) (by omega) (by omega)
      rw [hr]
      exact ⟨rfl, rfl, raise_reports_of_caption ((feedRecord_only _ s).mono (by decide)) (countCueDropped_feeds s) _ _ _,
        dropped_countCueDropped⟩
  · exact queueClear_fits n
  · rw [queueClear_dropped n h]
    exact ⟨rfl, rfl, dropped_countCueDropped⟩
  · intro clears leaving staying taken new
    have hnew : admitted s.text.t1 last u = new := admitted_from s.text.t1 last u
    have hstay : s.text.captions.filter (fun d => !decide (d.cue.outPoint ≤ u)) = staying := staying_eq _ u
    refine ⟨fun k hk => ?_, fun hn hfit => ?_, fun c hn hl => ?_, ?_, fun hfit => ?_⟩
    · rw [runT1_table, moved_comparator hk]
      simp only [taken, hk, Option.getD_some]
    · have hrun : runT1 last u false s = admittingT1 last u false s := by rw [runT1_eq, hnew, hn, List.foldl_nil]
      rw [hrun]
      refine ⟨hstay, ?_⟩
      show (leaving.foldl clearIfShowing s).caption.ring = _
      rw [clears_fit leaving s hfit]
      rfl
    · have hrun : runT1 last u false s = admitT1 false (admittingT1 last u false s) c := by
        rw [runT1_eq, hnew, hn, List.foldl_cons, List.foldl_nil]
      have hcaption : (admittingT1 last u false s).caption = s.caption := by
        show (leaving.foldl clearIfShowing s).caption = _
        rw [hl]
        rfl
      obtain ⟨hone, htwo⟩ := admitT1_shown (admittingT1 last u false s) c
      obtain ⟨hd, hc⟩ := queueShow_congr ⟨c, false, false⟩ hcaption
      rw [hrun, hone, htwo, hd, hc]
      refine ⟨congrArg (· ++ _) ?_, rfl⟩
      exact staying_of_none hl
    · intro again shows hn hl hfit
      have hrun : runT1 last u true s = admittingT1 last u true s := by rw [runT1_eq, hnew, hn, List.foldl_nil]
      obtain ⟨h1, h2⟩ := shows_fit s.text.captions s hfit
      have hreleased : captionsReleased u true s =
          setCaptions (reshowCaptions s.text.captions s).1 (reshowCaptions s.text.captions s).2 := by
        show setCaptions (reshowCaptions _ (leaving.foldl clearIfShowing s)).1
          (reshowCaptions _ (leaving.foldl clearIfShowing s)).2 = _
        rw [hl, staying_of_none hl]
        rfl
      rw [hrun]
      refine ⟨?_, ?_⟩
      · show (captionsReleased u true s).text.captions = _
        rw [hreleased]
        exact h1
      · show (captionsReleased u true s).caption.ring = _
        rw [hreleased]
        exact congrArg CaptionLine.ring h2
    · obtain ⟨hcaptions, hline⟩ := freeResources_captions (fun r => r.seg == s.seq.seg) s
      obtain ⟨h1, h2, h3⟩ := clearDisplays_fit (s := freeResources (fun r => r.seg == s.seq.seg) s)
        (by rw [hcaptions, hline]; exact hfit)
      refine ⟨rfl, ?_, h1, h2, ?_⟩
      · show (s.text.captions.foldl clearIfShowing s).caption.ring = _
        rw [clears_fit _ s hfit]
        rfl
      · show (clearDisplays (freeResources (fun r => r.seg == s.seq.seg) s)).caption.ring = _
        rw [h3, hcaptions, hline]
        rfl

end Sys2Proof.Machine
end

section
/-! PROOF. A unit boundary that goes on: what the steps of R13 make of the Sequencer, what the outputs of the unit that
begins leave of it, and the controls a boundary takes (R13, R22, R137). -/

namespace Sys2Proof.Machine

/-! ### The row -/

theorem exec_unitBoundary {s : State} (hp : s.supplies.main = true) (hc : s.seq.clockRunning = true) :
    exec .unitBoundary s = .next (unitBoundaryTick s) := by
  show Host.Outcome.next (if boundaryDue s then unitBoundaryTick s else s) = _
  rw [boundaryDue, powered, hp, hc]
  rfl

/-- The state as a boundary occurs: its tick count returned to 0 (R26). -/
def ticked (s : State) : State := s.withSeq { s.seq with tickCount := 0 }

/-! ### The steps of R13 -/

/-- With neither stop nor timeout pending and no segment at its end, the boundary goes on from the unit that ended. -/
theorem handleBoundary_goes {s : State} (hstop : s.seq.pend.stop = false) (htime : s.seq.pend.timeout = false)
    (hlast : s.seq.atLastUnit = false) :
    handleBoundary s = ⟨boundaryControls (s.withSeq s.seq.timed.unitEnded), none, false⟩ := by
  have hunit : boundaryUnit s = s.withSeq s.seq.timed.unitEnded := by
    rw [boundaryUnit, hlast]
    rfl
  simp only [handleBoundary, hstop, htime, hlast, hunit, Bool.false_eq_true, if_false]

/-- With no control pending, steps 5 to 7 of R13 change nothing. -/
theorem boundaryControls_none {s : State} (h : s.seq.pend = .none) : boundaryControls s = s := by
  have hpause : boundaryPause s = s := by rw [boundaryPause, h]; rfl
  have hresume : boundaryResume s = s := by rw [boundaryResume, h]; rfl
  have hgo : boundaryGo s = s := by
    rw [boundaryGo]
    split
    · rw [if_neg (by simp [h, PendingControls.none])]
    · rfl
  rw [boundaryControls, hpause, hresume, hgo]

/-- A pending pause alone, in LEAD or PLAYING, enters PAUSED. -/
theorem boundaryControls_pause {s : State} {cause : PauseCause}
    (h : s.seq.pend = { PendingControls.none with pause := some cause }) (hs : s.seq.state = .lead ∨ s.seq.state = .playing) :
    boundaryControls s = countPause (s.withSeq (s.seq.pausedBy cause)) := by
  have hpause : boundaryPause s = countPause (s.withSeq (s.seq.pausedBy cause)) := by
    rw [boundaryPause, h]
    exact if_pos hs
  have hpend : (countPause (s.withSeq (s.seq.pausedBy cause))).seq.pend = { PendingControls.none with pause := some cause } := h
  rw [boundaryControls, hpause, boundaryResume, if_neg (by rw [hpend]; exact fun e => Bool.noConfusion e.1), boundaryGo]
  split
  · rw [if_neg (by rw [hpend]; exact fun e => Bool.noConfusion e.1)]
  · rfl

/-- A pending resume alone, in PAUSED, leaves it. -/
theorem boundaryControls_resume {s : State} (h : s.seq.pend = { PendingControls.none with resume := true })
    (hs : s.seq.state = .paused) :
    boundaryControls s = (countPausedTime s.seq.pauseSteps s).withSeq s.seq.resumed := by
  have hpause : boundaryPause s = s := by rw [boundaryPause, h]; rfl
  have hresume : boundaryResume s = (countPausedTime s.seq.pauseSteps s).withSeq s.seq.resumed := by
    rw [boundaryResume, h]
    exact if_pos ⟨rfl, hs⟩
  have hpend : ((countPausedTime s.seq.pauseSteps s).withSeq s.seq.resumed).seq.pend =
      { PendingControls.none with resume := true } := h
  rw [boundaryControls, hpause, hresume, boundaryGo]
  split
  · rw [if_neg (by rw [hpend]; exact fun e => Bool.noConfusion e.1)]
  · rfl

/-- A pending go alone, in CUED or HOLD, satisfies the hold; what else it brings is the record's start time. -/
theorem boundaryControls_go {s : State} {c : Context} (h : s.seq.pend = { PendingControls.none with go := true })
    (hs : s.seq.state = .cued ∨ s.seq.state = .hold) (hc : s.seq.ctx = some c) :
    (boundaryControls s).seq = ({ s.seq with ctx := some { c with holdPending := false } } : Sequencer).leadOrPlay
        { c with holdPending := false } ∧ Only [.seq, .recorder] s (boundaryControls s) := by
  have hpause : boundaryPause s = s := by rw [boundaryPause, h]; rfl
  have hresume : boundaryResume s = s := by rw [boundaryResume, h]; rfl
  have hgo : s.seq.pend.go = true ∧ (s.seq.state = .cued ∨ s.seq.state = .hold) := ⟨by rw [h], hs⟩
  rw [boundaryControls, hpause, hresume, boundaryGo, hc]
  dsimp only
  rw [if_pos hgo]
  split
  · exact ⟨rfl, (only_withSeq s _).trans (feedRecord_only _ _)⟩
  · exact ⟨rfl, (only_withSeq s _).mono (by decide)⟩

/-- The boundary of a state that goes on, from what steps 1 and 5 to 7 of R13 leave. -/
theorem unitBoundaryTick_goes {s : State} (hstop : s.seq.pend.stop = false) (htime : s.seq.pend.timeout = false)
    (hlast : s.seq.atLastUnit = false) :
    unitBoundaryTick s = boundaryGoes (ticked s) false
      (boundaryControls ((ticked s).withSeq (ticked s).seq.timed.unitEnded)) := by
  have hh := handleBoundary_goes (s := ticked s) hstop htime hlast
  show boundaryActs (ticked s) = _
  rw [boundaryActs, hh]

/-! ### What the outputs leave of the Sequencer -/

/-- The Sequencer changed in its flags alone. -/
def Sequencer.Flagged (q r : Sequencer) : Prop := r = { q with flags := r.flags }

theorem Sequencer.Flagged.refl (q : Sequencer) : q.Flagged q := rfl

theorem Sequencer.Flagged.trans {q r x : Sequencer} (h : q.Flagged r) (k : r.Flagged x) : q.Flagged x := by
  unfold Sequencer.Flagged at *
  rw [k, h]

theorem flagged_of_only {ps : List Part} {s t : State} (h : Only ps s t) (hp : Part.seq ∉ ps) : s.seq.Flagged t.seq :=
  (show t.seq = s.seq from h.eq .seq hp) ▸ Sequencer.Flagged.refl _

theorem performCue_flagged (i : Nat) (a : CueAction) (s : State) : s.seq.Flagged (performCue i a s).seq := by
  cases a with
  | line n x => rfl
  | flag x y z => rfl
  | mark v => rfl
  | sound p =>
    unfold performCue
    dsimp only
    split <;> rfl

theorem fireGroup_flagged (g : Segment) (f : Anchor → Bool) (s : State) : s.seq.Flagged (fireGroup g f s).seq := by
  have one : ∀ (u : State) (i : Nat), u.seq.Flagged (fireCue f u i).seq := fun u i => by
    unfold fireCue
    dsimp only
    split
    · exact performCue_flagged _ _ u
    · exact .refl _
  have all : ∀ (l : List Nat) (u : State), u.seq.Flagged (l.foldl (fireCue f) u).seq := by
    intro l
    induction l with
    | nil => exact fun u => .refl _
    | cons i l ih => exact fun u => (one u i).trans (ih _)
  exact all _ s

theorem fireIf_flagged (b : Bool) (g : Segment) (f : Anchor → Bool) (s : State) :
    s.seq.Flagged (fireIf b g f s).seq := by
  unfold fireIf
  split
  · exact fireGroup_flagged g f s
  · exact .refl _

theorem fireCues_flagged (c : Context) (a b : Bool) (s : State) : s.seq.Flagged (fireCues c a b s).seq :=
  (((fireIf_flagged _ _ _ s).trans (fireIf_flagged _ _ _ _)).trans (fireIf_flagged _ _ _ _)).trans
    (fireIf_flagged _ _ _ _)

theorem fireEndCues_flagged (g : Segment) (c : EndCause) (s : State) : s.seq.Flagged (fireEndCues g c s).seq :=
  (fireIf_flagged _ _ _ s).trans (fireIf_flagged _ _ _ _)

/-- The Sequencer as P0's outcome is handed to it while PLAYING (R22): the starvation count, and a starved pause pending
where it has reached its limit. -/
def Sequencer.handed (t : Taken) (q : Sequencer) : Sequencer :=
  match t with
  | .ok _ => { q with starvation := 0 }
  | .error _ =>
    let r := { q with starvation := addTo 240 q.starvation 1 }
    if r.starves then { r with pend := { r.pend with pause := some .starved, resume := false } } else r

theorem handOutcome_seq (t : Taken) (s : State) : (handOutcome t s).seq = s.seq.handed t := by
  unfold handOutcome Sequencer.handed
  cases t with
  | ok u => rfl
  | error x => exact apply_ite State.seq _ _ _

theorem carryOutput_seq (c : Context) (r : Bool) (a0 : Taken) (a1 : Option Taken) (a2 a3 : Taken) (s : State) :
    (carryOutput c r a0 a1 a2 a3 s).seq = s.seq.handed a0 := by
  have before : ∀ u : State, Only [.sound, .recorder, .text, .caption, .reports, .picture] s u →
      (countAtPoint c (flipPair c (handOutcome a0 u))).seq = s.seq.handed a0 := fun u hu => by
    have h := ((flipPair_only c (handOutcome a0 u)).trans (countAtPoint_only c _)).eq .seq (by decide)
    rw [show (countAtPoint c (flipPair c (handOutcome a0 u))).seq = _ from h, handOutcome_seq,
      show u.seq = s.seq from hu.eq .seq (by decide)]
  refine before _ ?_
  refine Only.comp ?_ ((sendRecords_only _ _ _ _ _).mono (by decide))
  refine Only.comp ?_ ((Only.foldl _ (markOverlay_only _) _ _).mono (by decide))
  refine Only.comp ?_ ((runText_only c r _).mono (by decide))
  exact ((((only_withSound s _).trans (feedResult_only _ _)).trans (feedResult_only _ _)).trans (feedResult_only _ _)).mono
    (by decide)

theorem beginOutput_seq (c : Context) (r : Bool) (s : State) :
    (beginOutput c r s).seq = s.seq.handed (takeDue c.segment 0 s).1 := by
  have due : ∀ (slot : Nat) (u : State), (takeDue c.segment slot u).2.seq = u.seq := fun slot u =>
    (takeDue_only c.segment slot u).eq .seq (by decide)
  have right : ∀ u : State, (takeRight c.segment u).2.seq = u.seq := fun u =>
    (takeRight_only c.segment u).eq .seq (by decide)
  rw [beginOutput_eq, carryOutput_seq, due, due, right, due]

/-! ### A boundary that goes on -/

/-- The state as the unit that begins finds it: SHOW_STATE raised, the discards made, the profile in force (R13, R53,
R103). -/
def stagedFrom (old : State) (fresh : Bool) (c : Context) (s : State) : State :=
  boundaryStaged old fresh c (boundaryReported old s)

theorem stagedFrom_only (old : State) (f : Bool) (c : Context) (s : State) :
    Only [.seq, .reports, .track, .engine, .link, .sound] s (stagedFrom old f c s) :=
  (boundaryReported_only old s).trans (boundaryStaged_only old f c _)

theorem boundaryReported_seq (old s : State) : (boundaryReported old s).seq = { s.seq with pend := .none } :=
  (raiseIf_only _ _ _ _ _).eq .seq (by decide)

theorem stagedFrom_seq (old : State) (f : Bool) (c : Context) (s : State) :
    (stagedFrom old f c s).seq = { s.seq with pend := .none } :=
  ((boundaryStaged_only old f c _).eq .seq (by decide)).trans (boundaryReported_seq old s)

/-- A boundary that goes on, with the segment's context: the outputs of the unit, its cues, and PACE. -/
theorem boundaryGoes_eq {old s : State} {f : Bool} {c : Context} (hc : s.seq.ctx = some c) :
    boundaryGoes old f s = formPace (fireCues c (enteredPause old s) (leftPause old s)
      (boundaryCarries c (enteredPause old s) (leftPause old s) (stagedFrom old f c s))) := by
  have hctx : (boundaryReported old s).seq.ctx = some c := by
    rw [boundaryReported_seq]
    exact hc
  have hstate : (stagedFrom old f c s).seq.state = s.seq.state := by rw [stagedFrom_seq]
  have hentered : enteredPause old (stagedFrom old f c s) = enteredPause old s := by rw [enteredPause, hstate, enteredPause]
  have hleft : leftPause old (stagedFrom old f c s) = leftPause old s := by rw [leftPause, hstate, leftPause]
  rw [boundaryGoes, hctx, ← hentered, ← hleft]
  rfl

/-- Where the unit that begins is PLAYING, it carries output. -/
theorem boundaryGoes_playing {old s : State} {f : Bool} {c : Context} (hc : s.seq.ctx = some c)
    (hs : s.seq.state = .playing) : boundaryGoes old f s = formPace (fireCues c false (leftPause old s)
      (beginOutput c (leftPause old s) (stagedFrom old f c s))) := by
  have hentered : enteredPause old s = false := by rw [enteredPause, hs]; rfl
  have hstate : (stagedFrom old f c s).seq.state = .playing := by rw [stagedFrom_seq]; exact hs
  rw [boundaryGoes_eq hc, hentered, boundaryCarries, if_pos hstate]

theorem boundaryGoes_playing_seq {old s : State} {f : Bool} {c : Context} (hc : s.seq.ctx = some c)
    (hs : s.seq.state = .playing) :
    (({ s.seq with pend := .none } : Sequencer).handed (takeDue c.segment 0 (stagedFrom old f c s)).1).Flagged
      (boundaryGoes old f s).seq := by
  have h := fireCues_flagged c false (leftPause old s) (beginOutput c (leftPause old s) (stagedFrom old f c s))
  rw [beginOutput_seq, stagedFrom_seq] at h
  rw [boundaryGoes_playing hc hs]
  exact h.trans (flagged_of_only (formPace_only _) (by decide))

/-- Where the unit that begins is not PLAYING, the Sequencer changes in its flags alone, its pending controls cleared. -/
theorem boundaryGoes_black_seq {old s : State} {f : Bool} {c : Context} (hc : s.seq.ctx = some c)
    (hs : s.seq.state ≠ .playing) :
    ({ s.seq with pend := .none } : Sequencer).Flagged (boundaryGoes old f s).seq := by
  have hstate : (stagedFrom old f c s).seq.state ≠ .playing := by rw [stagedFrom_seq]; exact hs
  have hblack := flagged_of_only (beginBlack_only c (enteredPause old s) (stagedFrom old f c s)) (by decide)
  rw [stagedFrom_seq] at hblack
  rw [boundaryGoes_eq hc, boundaryCarries, if_neg hstate]
  exact (hblack.trans (fireCues_flagged c _ _ _)).trans (flagged_of_only (formPace_only _) (by decide))

/-- What P0's outcome changes of the Sequencer: the starvation count by at most 1, and the pending pause and resume. -/
theorem handed_eq (x : Taken) (q : Sequencer) : ∃ n p r, n ≤ q.starvation + 1 ∧
    q.handed x = { q with starvation := n, pend := { q.pend with pause := p, resume := r } } := by
  unfold Sequencer.handed
  cases x with
  | ok u => exact ⟨0, q.pend.pause, q.pend.resume, Nat.zero_le _, rfl⟩
  | error x =>
    have hn : addTo 240 q.starvation 1 ≤ q.starvation + 1 := Nat.min_le_right _ _
    dsimp only
    split
    · exact ⟨_, some .starved, false, hn, rfl⟩
    · exact ⟨_, q.pend.pause, q.pend.resume, hn, rfl⟩

/-- The Sequencer of a boundary that goes on stands as R13 left it but for the flags, the controls pending anew and the
starvation count, which rises by at most 1. -/
theorem boundaryGoes_seq {old s : State} {f : Bool} {c : Context} (hc : s.seq.ctx = some c) :
    ∃ n p r fl, n ≤ s.seq.starvation + 1 ∧ (boundaryGoes old f s).seq = { s.seq with
      starvation := n
      pend := { PendingControls.none with pause := p, resume := r }
      flags := fl } := by
  by_cases hs : s.seq.state = .playing
  · obtain ⟨n, p, r, hn, he⟩ := handed_eq (takeDue c.segment 0 (stagedFrom old f c s)).1 { s.seq with pend := .none }
    have h := boundaryGoes_playing_seq (old := old) (f := f) hc hs
    rw [he] at h
    exact ⟨n, p, r, _, hn, h⟩
  · exact ⟨s.seq.starvation, none, false, _, Nat.le_succ _, boundaryGoes_black_seq (old := old) (f := f) hc hs⟩

/-! ### The unit that ended -/

/-- A boundary out of LEAD and PLAYING leaves the position and the showing time (R13 step 1, R35). -/
theorem unitEnded_timed_rest {q : Sequencer} (hl : q.state ≠ .lead) (hp : q.state ≠ .playing) : q.timed.unitEnded = q := by
  have ht : q.timed = q := if_neg (not_or.mpr ⟨hl, hp⟩)
  rw [ht, Sequencer.unitEnded]
  split
  · exact absurd ‹_› hp
  · exact absurd ‹_› hl
  all_goals rfl

/-- A boundary in PLAYING raises the offset and the showing time. -/
theorem unitEnded_timed_playing {q : Sequencer} (hp : q.state = .playing) :
    q.timed.unitEnded = { q with showingTime := q.showingTime + q.ticksPerUnit, offset := q.offset + 1 } := by
  have ht : q.timed = { q with showingTime := q.showingTime + q.ticksPerUnit } := if_pos (.inr hp)
  rw [ht, Sequencer.unitEnded]
  simp only [hp]

/-- The boundary that ends the last lead unit begins PLAYING at offset 0. -/
theorem unitEnded_timed_lead {q : Sequencer} (hl : q.state = .lead) (h1 : q.leadRemaining ≤ 1) :
    q.timed.unitEnded = { q with
      showingTime := q.showingTime + q.ticksPerUnit
      leadRemaining := 0
      state := .playing
      offset := 0 } := by
  have ht : q.timed = { q with showingTime := q.showingTime + q.ticksPerUnit } := if_pos (.inl hl)
  rw [ht, Sequencer.unitEnded]
  simp only [hl, if_pos h1, Sequencer.inPlaying]

theorem atLastUnit_of_state {q : Sequencer} (hp : q.state ≠ .playing) : q.atLastUnit = false := by
  unfold Sequencer.atLastUnit
  split
  · simp [hp]
  · rfl

theorem atLastUnit_within {q : Sequencer} {c : Context} (hc : q.ctx = some c) (h : q.offset + 1 < c.segment.duration) :
    q.atLastUnit = false := by
  simp [Sequencer.atLastUnit, hc, h]

/-! ### The controls a boundary takes -/

theorem leadOrPlay_eq (c : Context) (q : Sequencer) :
    q.leadOrPlay c = if 0 < c.leadUnits then { q with state := .lead, leadRemaining := c.leadUnits }
      else { q with state := .playing, offset := 0 } := rfl

/-- The state R13 makes of a pending go: CUED or HOLD left for LEAD or PLAYING. -/
theorem unitBoundaryTick_go {s : State} {c : Context} (hc : s.seq.ctx = some c) (hs : s.seq.state = .cued ∨ s.seq.state = .hold)
    (hp : s.seq.pend = { PendingControls.none with go := true }) :
    ∃ v, unitBoundaryTick s = boundaryGoes (ticked s) false v ∧ Only [.seq, .recorder] s v ∧
      v.seq = (({ s.seq with tickCount := 0, ctx := some { c with holdPending := false } } : Sequencer).leadOrPlay
        { c with holdPending := false }) := by
  have hl : s.seq.state ≠ .lead := by rcases hs with e | e <;> rw [e] <;> nofun
  have hplay : s.seq.state ≠ .playing := by rcases hs with e | e <;> rw [e] <;> nofun
  obtain ⟨hseq, honly⟩ := boundaryControls_go (s := ticked s) hp hs hc
  refine ⟨boundaryControls (ticked s), ?_, (((only_withSeq s _).mono (by decide)).comp honly), hseq⟩
  rw [unitBoundaryTick_goes (by rw [hp]; rfl) (by rw [hp]; rfl) (atLastUnit_of_state hplay),
    unitEnded_timed_rest (q := (ticked s).seq) hl hplay]
  rfl

/-- The state R13 makes of a pending pause within a segment: PAUSED, the next unit frozen. -/
theorem unitBoundaryTick_pause {s : State} {c : Context} {cause : PauseCause} (hc : s.seq.ctx = some c)
    (hs : s.seq.state = .playing) (ho : s.seq.offset + 1 < c.segment.duration)
    (hp : s.seq.pend = { PendingControls.none with pause := some cause }) :
    ∃ v, unitBoundaryTick s = boundaryGoes (ticked s) false v ∧ Only [.seq, .recorder] s v ∧
      v.seq = { s.seq with
        tickCount := 0
        showingTime := s.seq.showingTime + s.seq.ticksPerUnit
        offset := s.seq.offset + 1
        state := .paused
        pausedFrom := some .playing
        pauseCause := some cause
        pauseSteps := 0 } := by
  obtain ⟨q, hq⟩ : ∃ q : Sequencer, q = { s.seq with
      tickCount := 0
      showingTime := s.seq.showingTime + s.seq.ticksPerUnit
      offset := s.seq.offset + 1 } := ⟨_, rfl⟩
  have hctl := boundaryControls_pause (s := s.withSeq q) (cause := cause) (by rw [State.withSeq_seq, hq]; exact hp)
    (by rw [State.withSeq_seq, hq]; exact .inr hs)
  refine ⟨countPause (s.withSeq (q.pausedBy cause)), ?_, ?_, ?_⟩
  · rw [unitBoundaryTick_goes (by rw [hp]; rfl) (by rw [hp]; rfl) (atLastUnit_within hc ho),
      unitEnded_timed_playing (q := (ticked s).seq) hs]
    rw [hq] at hctl ⊢
    exact congrArg _ hctl
  · exact (only_withSeq s _).trans (feedRecord_only _ _)
  · show q.pausedBy cause = _
    rw [Sequencer.pausedBy, hq]
    simp only [hs]

/-- The state R13 makes of a pending resume: the state paused from, position as it was. -/
theorem unitBoundaryTick_resume {s : State} (hs : s.seq.state = .paused)
    (hp : s.seq.pend = { PendingControls.none with resume := true }) :
    ∃ v, unitBoundaryTick s = boundaryGoes (ticked s) false v ∧ Only [.seq, .recorder] s v ∧
      v.seq = (ticked s).seq.resumed := by
  have hctl := boundaryControls_resume (s := ticked s) hp hs
  refine ⟨_, ?_, ?_, congrArg State.seq hctl⟩
  · rw [unitBoundaryTick_goes (by rw [hp]; rfl) (by rw [hp]; rfl) (atLastUnit_of_state (by rw [hs]; nofun)),
      unitEnded_timed_rest (q := (ticked s).seq) (by rw [show (ticked s).seq.state = .paused from hs]; nofun)
        (by rw [show (ticked s).seq.state = .paused from hs]; nofun)]
    rfl
  · rw [hctl]
    exact (((only_withSeq s _).trans (feedRecord_only _ _)).trans (only_withSeq _ _)).mono (by decide)

/-- Settles O33, by what steps 5 to 7 of R13 leave, which the outputs of the unit that begins leave standing. -/
theorem boundaryTakesPendingControls : Obligations.boundary_takes_pending_controls := by
  intro s c hmain hclock hc
  refine ⟨fun hs hp => ?_, fun cause hs ho hp => ?_, fun st hst hs hfrom hp => ?_⟩
  · obtain ⟨v, ht, -, hv⟩ := unitBoundaryTick_go hc hs hp
    rw [leadOrPlay_eq] at hv
    refine ⟨_, exec_unitBoundary hmain hclock, ?_⟩
    by_cases hlead : 0 < c.leadUnits
    · rw [if_pos hlead] at hv
      obtain ⟨n, p, r, fl, -, he⟩ := boundaryGoes_seq (old := ticked s) (f := false) (s := v)
        (c := { c with holdPending := false }) (by rw [hv])
      rw [ht, he, hv, if_pos hlead]
      exact ⟨rfl, rfl, fun _ => rfl, fun h => absurd h (Nat.ne_of_gt hlead), rfl, rfl⟩
    · rw [if_neg hlead] at hv
      obtain ⟨n, p, r, fl, -, he⟩ := boundaryGoes_seq (old := ticked s) (f := false) (s := v)
        (c := { c with holdPending := false }) (by rw [hv])
      rw [ht, he, hv, if_neg hlead]
      exact ⟨rfl, rfl, fun h => absurd h hlead, fun _ => rfl, rfl, rfl⟩
  · obtain ⟨v, ht, -, hv⟩ := unitBoundaryTick_pause hc hs ho hp
    have he := boundaryGoes_black_seq (old := ticked s) (f := false) (s := v) (c := c) (by rw [hv]; exact hc)
      (by rw [hv]; nofun)
    refine ⟨_, exec_unitBoundary hmain hclock, ?_⟩
    rw [ht, he, hv]
    exact ⟨rfl, rfl, rfl, rfl, rfl, rfl⟩
  · obtain ⟨v, ht, -, hv⟩ := unitBoundaryTick_resume hs hp
    have hstate : v.seq.state = st := by
      rw [hv]
      show s.seq.pausedFrom.getD .playing = st
      rw [hfrom]
      rfl
    obtain ⟨n, p, r, fl, hn, he⟩ := boundaryGoes_seq (old := ticked s) (f := false) (s := v) (c := c) (by rw [hv]; exact hc)
    rw [hv] at hn
    refine ⟨_, exec_unitBoundary hmain hclock, ?_⟩
    rw [ht, he]
    exact ⟨hstate, by rw [hv]; rfl, by rw [hv]; rfl, by rw [hv]; rfl, by rw [hv]; rfl, hn⟩

/-! ### Boundaries with no control pending -/

/-- Within a segment being played the offset rises by 1 and the unit's ticks join the showing time. -/
theorem unitBoundaryTick_within {s : State} {c : Context} (hc : s.seq.ctx = some c) (hs : s.seq.state = .playing)
    (ho : s.seq.offset + 1 < c.segment.duration) (hp : s.seq.pend = PendingControls.none) :
    unitBoundaryTick s = boundaryGoes (ticked s) false (s.withSeq { s.seq with
      tickCount := 0
      showingTime := s.seq.showingTime + s.seq.ticksPerUnit
      offset := s.seq.offset + 1 }) := by
  rw [unitBoundaryTick_goes (by rw [hp]; rfl) (by rw [hp]; rfl) (atLastUnit_within hc ho),
    unitEnded_timed_playing (q := (ticked s).seq) hs, boundaryControls_none (by exact hp)]
  rfl

/-- The boundary that ends the last lead unit begins PLAYING at offset 0. -/
theorem unitBoundaryTick_lead {s : State} (hs : s.seq.state = .lead) (h1 : s.seq.leadRemaining ≤ 1)
    (hp : s.seq.pend = PendingControls.none) :
    unitBoundaryTick s = boundaryGoes (ticked s) false (s.withSeq { s.seq with
      tickCount := 0
      showingTime := s.seq.showingTime + s.seq.ticksPerUnit
      leadRemaining := 0
      state := .playing
      offset := 0 }) := by
  rw [unitBoundaryTick_goes (by rw [hp]; rfl) (by rw [hp]; rfl) (atLastUnit_of_state (by rw [hs]; nofun)),
    unitEnded_timed_lead (q := (ticked s).seq) hs h1, boundaryControls_none (by exact hp)]
  rfl

end Sys2Proof.Machine
end

section
/-! PROOF. The picture of a unit whose output begins: the queues' discards, the due unit taken, the records sent (R53, R72
to R77). -/

namespace Sys2Proof.Machine

/-! ### Discards (R53, R72) -/

theorem leaveQueue_queues (slot : Nat) (out rest : List UnitRec) (s : State) :
    (leaveQueue slot out rest s).track.queues = bankSet s.track.queues slot rest := by
  have abandoned : ∀ (is : UnpackJob → Bool) (n : Nat) (u : State), (markAbandoned is n u).track = u.track := fun is n u =>
    (markAbandoned_only is n u).eq .track (by decide)
  rw [leaveQueue]
  rw [abandoned]
  split <;> rfl

theorem queueOf_leaveQueue {slot : Nat} (h : slot < 4) (out rest : List UnitRec) (s : State) :
    queueOf (leaveQueue slot out rest s) slot = rest := by
  rw [queueOf, leaveQueue_queues, bankGet_set_same _ _ _ h]

theorem queueOf_leaveQueue_other {slot k : Nat} (h : k ≠ slot) (out rest : List UnitRec) (s : State) :
    queueOf (leaveQueue slot out rest s) k = queueOf s k := by
  rw [queueOf, leaveQueue_queues, bankGet_set_other _ _ _ _ (Ne.symm h), queueOf]

theorem queueOf_discardLate {slot : Nat} (h : slot < 4) (gone : UnitRec → Bool) (s : State) :
    queueOf (discardLate slot gone s) slot = (queueOf s slot).filter (fun u => !gone u) :=
  queueOf_leaveQueue h _ _ s

theorem queueOf_discardLate_other {slot k : Nat} (h : k ≠ slot) (gone : UnitRec → Bool) (s : State) :
    queueOf (discardLate slot gone s) k = queueOf s k :=
  queueOf_leaveQueue_other h _ _ s

/-- The boundary discards leave P0's units that are not late. -/
theorem queueOf_stagedFrom (old : State) (f : Bool) (c : Context) (s : State) :
    queueOf (stagedFrom old f c s) 0 = (queueOf s 0).filter (fun u => !lateFor old 0 (u.seg, .unit u.unit)) := by
  have mono : ∀ u : State, queueOf (monoDiscard u) 0 = queueOf u 0 := by
    intro u
    unfold monoDiscard
    split
    · split
      · rfl
      · exact queueOf_discardLate_other (by decide) _ u
    · rfl
  have other : ∀ (k : Nat) (u : State), k ≠ 0 → queueOf (boundaryDiscard old u k) 0 = queueOf u 0 := fun k u hk =>
    queueOf_discardLate_other (Ne.symm hk) _ u
  have hreported : queueOf (boundaryReported old s) 0 = queueOf s 0 := by
    rw [queueOf, (boundaryReported_only old s).eq .track (by decide), queueOf]
  have hfold : ∀ u : State, (List.range 4).foldl (boundaryDiscard old) u =
      boundaryDiscard old (boundaryDiscard old (boundaryDiscard old (boundaryDiscard old u 0) 1) 2) 3 := fun u => by
    rw [show List.range 4 = [0, 1, 2, 3] from rfl, List.foldl_cons, List.foldl_cons, List.foldl_cons, List.foldl_cons,
      List.foldl_nil]
  have staged : ∀ u : State, queueOf (boundaryStaged old f c u) 0 =
      queueOf (monoDiscard ((List.range 4).foldl (boundaryDiscard old) u)) 0 := by
    intro u
    rw [boundaryStaged]
    exact congrArg (fun x : TrackAssembler => bankGet x.queues 0) (State.withSound_track _ _)
  rw [stagedFrom, staged, mono, hfold, other 3 _ (by decide), other 2 _ (by decide), other 1 _ (by decide), boundaryDiscard,
    queueOf_discardLate (by decide), hreported]

/-- Where no unit of a queue is before the due unit or of a passed entry, no head is discarded (R72). -/
theorem queueOf_discardHeads {slot : Nat} (h : slot < 4) {s : State}
    (hl : ∀ u ∈ queueOf s slot, (before s (u.seg, .unit u.unit) (duePlace s) || isPassed s u.seg) = false) :
    queueOf (discardHeads slot s) slot = queueOf s slot := by
  have hnone : (queueOf s slot).takeWhile
      (fun u => before s (u.seg, .unit u.unit) (duePlace s) || isPassed s u.seg) = [] := by
    cases hq : queueOf s slot with
    | nil => rfl
    | cons u l =>
      rw [List.takeWhile_cons, hl u (by rw [hq]; exact List.mem_cons_self)]
      rfl
  rw [discardHeads]
  rw [hnone]
  exact queueOf_leaveQueue h _ _ s

/-! ### The due unit taken (R72, R77) -/

/-- What a slot's due unit is judged to be, from the queue that is left once heads before it are gone. -/
theorem takeDue_fst (g : Segment) (slot : Nat) (s : State) : (takeDue g slot s).1 =
    (judgeHead g slot s.seq.seg (reelUnit s.seq) (queueOf (discardHeads slot s) slot)).1 := by
  have hseq : (discardHeads slot s).seq = s.seq := (discardHeads_only slot s).eq .seq (by decide)
  rw [takeDue, hseq]
  split <;> (rename_i he; exact he.symm ▸ rfl)

/-- What an outcome makes of the Picture Port: the slot's last outcome, the stores standing (R77). -/
structure OutcomeKept (slot : Nat) (good : Bool) (p r : PicturePort) : Prop where
  left : r.left = p.left
  right : r.right = p.right
  same : slot < 4 → bankGet r.concealed slot = !good
  other : ∀ k, k ≠ slot → bankGet r.concealed k = bankGet p.concealed k

theorem concealSlot_kept_outcome (slot : Nat) (c : Cause) (s : State) :
    OutcomeKept slot false s.picture (concealSlot slot c s).picture := by
  unfold concealSlot
  split
  · exact ⟨rfl, rfl, fun _ => ‹_›, fun _ _ => rfl⟩
  · exact ⟨rfl, rfl, fun h => bankGet_set_same _ _ _ h, fun k hk => bankGet_set_other _ _ _ _ (Ne.symm hk)⟩

theorem goodSlot_kept_outcome (slot : Nat) (s : State) : OutcomeKept slot true s.picture (goodSlot slot s).picture :=
  ⟨rfl, rfl, fun h => bankGet_set_same _ _ _ h, fun _ hk => bankGet_set_other _ _ _ _ (Ne.symm hk)⟩

theorem takeDue_after (g : Segment) (slot : Nat) (s : State) :
    OutcomeKept slot (isGood (takeDue g slot s).1) s.picture (takeDue g slot s).2.picture ∧
      (takeDue g slot s).2.track.queues =
        (if (judgeHead g slot s.seq.seg (reelUnit s.seq) (queueOf (discardHeads slot s) slot)).2 then
          bankSet (discardHeads slot s).track.queues slot ((queueOf (discardHeads slot s) slot).drop 1)
        else (discardHeads slot s).track.queues) := by
  have hseq : (discardHeads slot s).seq = s.seq := (discardHeads_only slot s).eq .seq (by decide)
  have taken : ∀ (b : Bool) (q : List UnitRec) (u : State),
      (if b then setQueue slot q u else u).track.queues = (if b then bankSet u.track.queues slot q else u.track.queues) ∧
        (if b then setQueue slot q u else u).picture = u.picture := by
    intro b q u
    cases b <;> exact ⟨rfl, rfl⟩
  have hpicture : (discardHeads slot s).picture = s.picture := (discardHeads_only slot s).eq .picture (by decide)
  obtain ⟨r, hr⟩ : ∃ r, r = judgeHead g slot s.seq.seg (reelUnit s.seq) (queueOf (discardHeads slot s) slot) := ⟨_, rfl⟩
  obtain ⟨hq, hp⟩ := taken r.2 ((queueOf (discardHeads slot s) slot).drop 1) (discardHeads slot s)
  rw [takeDue, hseq]
  rw [← hr]
  cases hr1 : r.1 with
  | ok u =>
    have hg := goodSlot_kept_outcome slot
      (if r.2 then setQueue slot ((queueOf (discardHeads slot s) slot).drop 1) (discardHeads slot s) else discardHeads slot s)
    rw [hp, hpicture] at hg
    exact ⟨hg, hq⟩
  | error x =>
    have hc := concealSlot_kept_outcome slot x
      (if r.2 then setQueue slot ((queueOf (discardHeads slot s) slot).drop 1) (discardHeads slot s) else discardHeads slot s)
    rw [hp, hpicture] at hc
    refine ⟨hc, Eq.trans ?_ hq⟩
    exact congrArg TrackAssembler.queues ((concealSlot_only slot x _).eq .track (by decide))

theorem queueOf_takeDue_other (g : Segment) {slot k : Nat} (h : k ≠ slot) (s : State) :
    queueOf (takeDue g slot s).2 k = queueOf s k := by
  have hheads : queueOf (discardHeads slot s) k = queueOf s k := by
    rw [discardHeads]
    exact queueOf_leaveQueue_other h _ _ s
  rw [queueOf, (takeDue_after g slot s).2]
  split
  · rw [bankGet_set_other _ _ _ _ (Ne.symm h)]
    exact hheads
  · exact hheads

/-- A slot's queue after its due unit was taken, where no head was before it (R72). -/
theorem queueOf_takeDue (g : Segment) {slot : Nat} (h : slot < 4) {s : State}
    (hl : ∀ u ∈ queueOf s slot, (before s (u.seg, .unit u.unit) (duePlace s) || isPassed s u.seg) = false) :
    queueOf (takeDue g slot s).2 slot =
      if (judgeHead g slot s.seq.seg (reelUnit s.seq) (queueOf s slot)).2 then (queueOf s slot).drop 1
      else queueOf s slot := by
  have hheads := queueOf_discardHeads h hl
  rw [queueOf, (takeDue_after g slot s).2, hheads]
  split
  · exact bankGet_set_same _ _ _ h
  · exact hheads

/-! ### The records of a unit (R75, R76) -/

/-- What P0's outcome shows: its record's content, source, concealment and cause (R75, R76). -/
def shownBy (p : PicturePort) : Taken → Content × Option (Nat × Nat) × Bool × Cause
  | .ok u => (.unit u.content, some (u.seg, u.unit), false, .none)
  | .error x => (match p.left with | some g => .held g.plaintext | none => .black,
      p.left.map (fun g => (g.seg, g.unit)), true, x)

/-- The last good left or mono unit once P0's outcome is kept (R76). -/
def leftAfter (p : PicturePort) : Taken → Option GoodUnit
  | .ok u => some ⟨u.seg, u.unit, u.content⟩
  | .error _ => p.left

theorem shownBy_congr {p r : PicturePort} (h : r.left = p.left) (x : Taken) : shownBy r x = shownBy p x := by
  cases x with
  | ok u => rfl
  | error c => rw [shownBy, shownBy, h]

theorem leftAfter_congr {p r : PicturePort} (h : r.left = p.left) (x : Taken) : leftAfter r x = leftAfter p x := by
  cases x with
  | ok u => rfl
  | error c => exact h

theorem outputRecord_shown (s : State) (eye : Eye) (x : Taken) (l : List Overlay) (he : goodUnit s.picture eye = s.picture.left) :
    (let r := outputRecord s eye x l
    (r.content, r.source, r.concealed, r.cause)) = shownBy s.picture x := by
  cases x with
  | ok u => rfl
  | error c =>
    rw [outputRecord, shownBy, he]
    cases s.picture.left <;> rfl

/-- The records of a unit: one per eye, the first P0's, whose store takes a good unit. -/
theorem sendRecords_picture (g : Segment) (x : Taken) (y : Option Taken) (l : List Overlay) (s : State) :
    let r := (sendRecords g x y l s).picture
    r.records.map (·.eye) = (if y.isSome then [.left, .right] else [.mono]) ∧
      r.records.head?.map (fun z => (z.content, z.source, z.concealed, z.cause)) = some (shownBy s.picture x) ∧
      r.left = leftAfter s.picture x ∧ r.concealed = s.picture.concealed := by
  have hmono := outputRecord_shown s .mono x l rfl
  have hleft := outputRecord_shown s .left x l rfl
  have eyes : ∀ (e : Eye) (z : Taken), (outputRecord s e z l).eye = e := by
    intro e z
    unfold outputRecord
    cases z with
    | ok u => rfl
    | error c =>
      dsimp only
      cases goodUnit s.picture e <;> rfl
  have keeps : ∀ (e : Eye) (z : Taken) (p : PicturePort), e ≠ .right → (keepGood e z p).left = leftAfter p z ∧
      (keepGood e z p).concealed = p.concealed := by
    intro e z p he
    cases z with
    | ok u => cases e <;> first | exact ⟨rfl, rfl⟩ | exact absurd rfl he
    | error c => exact ⟨rfl, rfl⟩
  have right : ∀ (z : Taken) (p : PicturePort), (keepGood .right z p).left = p.left ∧
      (keepGood .right z p).concealed = p.concealed := by
    intro z p
    cases z <;> exact ⟨rfl, rfl⟩
  cases y with
  | some z =>
    obtain ⟨h1, h2⟩ := right z (keepGood .left x s.picture)
    obtain ⟨h3, h4⟩ := keeps .left x s.picture nofun
    refine ⟨?_, congrArg some hleft, h1.trans h3, h2.trans h4⟩
    show [(outputRecord s .left x l).eye, (outputRecord s .right z l).eye] = _
    rw [eyes, eyes]
    rfl
  | none =>
    obtain ⟨h3, h4⟩ := keeps (if g.stereo then .left else .mono) x s.picture (by cases g.stereo <;> nofun)
    refine ⟨?_, congrArg some hmono, h3, h4⟩
    show [(outputRecord s .mono x l).eye] = _
    rw [eyes]
    rfl

theorem carryOutput_picture (c : Context) (r : Bool) (a0 : Taken) (a1 : Option Taken) (a2 a3 : Taken) (s : State) :
    let p := (carryOutput c r a0 a1 a2 a3 s).picture
    p.records.map (·.eye) = (if a1.isSome then [.left, .right] else [.mono]) ∧
      p.records.head?.map (fun z => (z.content, z.source, z.concealed, z.cause)) = some (shownBy s.picture a0) ∧
      p.left = leftAfter s.picture a0 ∧ p.concealed = s.picture.concealed := by
  have tail : ∀ (l : List Overlay) (u : State), u.picture = s.picture →
      let p := (countAtPoint c (flipPair c (handOutcome a0 (sendRecords c.segment a0 a1 l u)))).picture
      p.records.map (·.eye) = (if a1.isSome then [.left, .right] else [.mono]) ∧
        p.records.head?.map (fun z => (z.content, z.source, z.concealed, z.cause)) = some (shownBy s.picture a0) ∧
        p.left = leftAfter s.picture a0 ∧ p.concealed = s.picture.concealed := by
    intro l u hu p
    have hp : p = (sendRecords c.segment a0 a1 l u).picture :=
      (((handOutcome_only a0 _).trans (flipPair_only c _)).trans (countAtPoint_only c _)).eq .picture (by decide)
    rw [hp, ← hu]
    exact sendRecords_picture c.segment a0 a1 l u
  refine tail _ _ ?_
  refine ((Only.foldl _ (markOverlay_only _) _ _).eq .picture (by decide)).trans ?_
  refine ((runText_only c r _).eq .picture (by decide)).trans ?_
  rfl

theorem carryOutput_only (c : Context) (r : Bool) (a0 : Taken) (a1 : Option Taken) (a2 a3 : Taken) (s : State) :
    Only [.sound, .recorder, .text, .caption, .reports, .picture, .seq, .showList, .licences] s
      (carryOutput c r a0 a1 a2 a3 s) := by
  refine Only.comp ?_ ((countAtPoint_only c _).mono (by decide))
  refine Only.comp ?_ ((flipPair_only c _).mono (by decide))
  refine Only.comp ?_ ((handOutcome_only _ _).mono (by decide))
  refine Only.comp ?_ ((sendRecords_only _ _ _ _ _).mono (by decide))
  refine Only.comp ?_ ((Only.foldl _ (markOverlay_only _) _ _).mono (by decide))
  refine Only.comp ?_ ((runText_only c r _).mono (by decide))
  exact ((((only_withSound s _).trans (feedResult_only _ _)).trans (feedResult_only _ _)).trans (feedResult_only _ _)).mono
    (by decide)

/-- The outcomes of the slots after P0 leave its last outcome and the left store. -/
theorem later_outcomes {slot : Nat} (hs : slot ≠ 0) (g : Segment) (s : State) :
    (takeDue g slot s).2.picture.left = s.picture.left ∧
      bankGet (takeDue g slot s).2.picture.concealed 0 = bankGet s.picture.concealed 0 ∧
      queueOf (takeDue g slot s).2 0 = queueOf s 0 :=
  have h := (takeDue_after g slot s).1
  ⟨h.left, h.other 0 (Ne.symm hs), queueOf_takeDue_other g (Ne.symm hs) s⟩

/-- The picture of a unit whose output begins, and P0's queue. -/
theorem beginOutput_picture (c : Context) (r : Bool) (s : State) :
    let x := (takeDue c.segment 0 s).1
    let p := (beginOutput c r s).picture
    p.records.map (·.eye) = (if c.segment.stereo then [.left, .right] else [.mono]) ∧
      p.records.head?.map (fun z => (z.content, z.source, z.concealed, z.cause)) = some (shownBy s.picture x) ∧
      p.left = leftAfter s.picture x ∧ bankGet p.concealed 0 = !isGood x ∧
      queueOf (beginOutput c r s) 0 = queueOf (takeDue c.segment 0 s).2 0 := by
  intro x p
  have right : ∀ u : State, (takeRight c.segment u).1.isSome = c.segment.stereo ∧
      (takeRight c.segment u).2.picture.left = u.picture.left ∧
      bankGet (takeRight c.segment u).2.picture.concealed 0 = bankGet u.picture.concealed 0 ∧
      queueOf (takeRight c.segment u).2 0 = queueOf u 0 := by
    intro u
    unfold takeRight
    cases c.segment.stereo with
    | false => exact ⟨rfl, rfl, rfl, rfl⟩
    | true => exact ⟨rfl, later_outcomes (by decide) c.segment u⟩
  obtain ⟨ha, hb, hc, hd⟩ := right (takeDue c.segment 0 s).2
  obtain ⟨hb2, hc2, hd2⟩ := later_outcomes (slot := 2) (by decide) c.segment (takeRight c.segment (takeDue c.segment 0 s).2).2
  obtain ⟨hb3, hc3, hd3⟩ := later_outcomes (slot := 3) (by decide) c.segment
    (takeDue c.segment 2 (takeRight c.segment (takeDue c.segment 0 s).2).2).2
  have h0 := (takeDue_after c.segment 0 s).1
  have hleft0 : (takeDue c.segment 3 (takeDue c.segment 2 (takeRight c.segment (takeDue c.segment 0 s).2).2).2).2.picture.left =
      s.picture.left := ((hb3.trans hb2).trans hb).trans h0.left
  have carried := carryOutput_picture c r x (takeRight c.segment (takeDue c.segment 0 s).2).1
    (takeDue c.segment 2 (takeRight c.segment (takeDue c.segment 0 s).2).2).1
    (takeDue c.segment 3 (takeDue c.segment 2 (takeRight c.segment (takeDue c.segment 0 s).2).2).2).1
    (takeDue c.segment 3 (takeDue c.segment 2 (takeRight c.segment (takeDue c.segment 0 s).2).2).2).2
  have kept := carryOutput_only c r x (takeRight c.segment (takeDue c.segment 0 s).2).1
    (takeDue c.segment 2 (takeRight c.segment (takeDue c.segment 0 s).2).2).1
    (takeDue c.segment 3 (takeDue c.segment 2 (takeRight c.segment (takeDue c.segment 0 s).2).2).2).1
    (takeDue c.segment 3 (takeDue c.segment 2 (takeRight c.segment (takeDue c.segment 0 s).2).2).2).2
  dsimp only at carried
  rw [← beginOutput_eq, ha, shownBy_congr hleft0, leftAfter_congr hleft0] at carried
  rw [← beginOutput_eq] at kept
  obtain ⟨heyes, hfirst, hleft, hconcealed⟩ := carried
  refine ⟨heyes, hfirst, hleft, ?_, ?_⟩
  · rw [show p.concealed = _ from hconcealed, hc3, hc2, hc]
    exact h0.same (by decide)
  · rw [queueOf, kept.eq .track (by decide)]
    exact (hd3.trans hd2).trans hd

/-! ### The boundary within a segment (R13, R72) -/

/-- The picture a boundary leaves whose unit is PLAYING, and P0's queue. -/
theorem boundaryGoes_picture {old v : State} {f : Bool} {c : Context} (hc : v.seq.ctx = some c)
    (hs : v.seq.state = .playing) :
    let w := stagedFrom old f c v
    let x := (takeDue c.segment 0 w).1
    let t := boundaryGoes old f v
    t.picture.records.map (·.eye) = (if c.segment.stereo then [.left, .right] else [.mono]) ∧
      t.picture.records.head?.map (fun z => (z.content, z.source, z.concealed, z.cause)) = some (shownBy v.picture x) ∧
      t.picture.left = leftAfter v.picture x ∧ bankGet t.picture.concealed 0 = !isGood x ∧
      queueOf t 0 = queueOf (takeDue c.segment 0 w).2 0 ∧ t.lane.pace.isSome = true := by
  intro w x t
  have ht : t = formPace (fireCues c false (leftPause old v) (beginOutput c (leftPause old v) w)) :=
    boundaryGoes_playing hc hs
  have ho := (fireCues_only c false (leftPause old v) (beginOutput c (leftPause old v) w)).trans (formPace_only _)
  have hpicture : t.picture = (beginOutput c (leftPause old v) w).picture := ht ▸ ho.eq .picture (by decide)
  have htrack : t.track = (beginOutput c (leftPause old v) w).track := ht ▸ ho.eq .track (by decide)
  have hw : w.picture = v.picture := (stagedFrom_only old f c v).eq .picture (by decide)
  obtain ⟨heyes, hfirst, hleft, hconcealed, hqueue⟩ := beginOutput_picture c (leftPause old v) w
  rw [hw] at hfirst hleft
  rw [hpicture]
  refine ⟨heyes, hfirst, hleft, hconcealed, ?_, ?_⟩
  · rw [queueOf, htrack]
    exact hqueue
  · rw [ht]
    rfl

/-- No position is before itself (R29). -/
theorem before_self (s : State) (a : Nat × Place) (h : a.2.lt a.2 = false) : before s a a = false := by
  simp [before, posBefore, h]

/-- The due position of P0 while PLAYING within a segment (R30). -/
theorem lateFor_playing {s : State} {c : Context} (hc : s.seq.ctx = some c) (hs : s.seq.state = .playing)
    (ho : s.seq.offset + 1 < c.segment.duration) (a : Nat × Place) :
    lateFor s 0 a = (before s a (c.played, .unit (c.segment.entryPoint + (s.seq.offset + 1))) || isPassed s a.1) := by
  have hdue : slotDue s.seq 0 = some (c.played, .unit (c.segment.entryPoint + (s.seq.offset + 1))) := by
    simp [slotDue, hc, dueOf, hs, ho]
  rw [lateFor, hdue]

theorem due_not_late {s : State} {c : Context} (hc : s.seq.ctx = some c) (hs : s.seq.state = .playing)
    (ho : s.seq.offset + 1 < c.segment.duration) :
    lateFor s 0 (c.played, .unit (c.segment.entryPoint + (s.seq.offset + 1))) = false := by
  rw [lateFor_playing hc hs ho, before_self _ _ (by simp [Place.lt]), isPassed, hc]
  simp [Context.passes]

/-- The Sequencer as the next unit of a segment being played begins. -/
def nextUnit (s : State) : State := s.withSeq { s.seq with
  tickCount := 0
  showingTime := s.seq.showingTime + s.seq.ticksPerUnit
  offset := s.seq.offset + 1 }

/-- P0's due unit at a boundary within a segment, where none of its queue is late: the head is judged, and leaves where
its outcome says so (R72). -/
theorem next_takeDue {s : State} {c : Context} (hc : s.seq.ctx = some c) (hs : s.seq.state = .playing)
    (ho : s.seq.offset + 1 < c.segment.duration) (hseg : s.seq.seg = c.played)
    (hl : ∀ v ∈ queueOf s 0, lateFor s 0 (v.seg, .unit v.unit) = false) :
    let w := stagedFrom (ticked s) false c (nextUnit s)
    let j := judgeHead c.segment 0 c.played (c.segment.entryPoint + (s.seq.offset + 1)) (queueOf s 0)
    (takeDue c.segment 0 w).1 = j.1 ∧
      queueOf (takeDue c.segment 0 w).2 0 = if j.2 then (queueOf s 0).drop 1 else queueOf s 0 := by
  intro w j
  have honly := stagedFrom_only (ticked s) false c (nextUnit s)
  have hseq : w.seq = { (nextUnit s).seq with pend := .none } := stagedFrom_seq _ _ _ _
  have hctx : w.seq.ctx = s.seq.ctx := by rw [hseq]; rfl
  have hlist : w.showList = s.showList := honly.eq .showList (by decide)
  have hqueue : queueOf w 0 = queueOf s 0 := by
    have hlate : ∀ a, lateFor (ticked s) 0 a = lateFor s 0 a := fun _ => rfl
    rw [show queueOf w 0 = _ from queueOf_stagedFrom _ _ _ _]
    refine List.filter_eq_self.mpr fun v hv => ?_
    rw [hlate, hl v hv]
    rfl
  have hunit : reelUnit w.seq = c.segment.entryPoint + (s.seq.offset + 1) := by
    rw [reelUnit, hctx, hc, hseq]
    rfl
  have hwseg : w.seq.seg = c.played := by
    rw [hseq]
    exact hseg
  have hheads : ∀ v ∈ queueOf w 0, (before w (v.seg, .unit v.unit) (duePlace w) || isPassed w v.seg) = false := by
    intro v hv
    rw [hqueue] at hv
    have h := hl v hv
    rw [lateFor_playing hc hs ho] at h
    rw [duePlace, hunit, hwseg, before, unplayed, isPassed, hctx, hlist]
    exact h
  refine ⟨?_, ?_⟩
  · rw [takeDue_fst, queueOf_discardHeads (by decide) hheads, hqueue, hunit, hwseg]
  · rw [queueOf_takeDue _ (by decide) hheads, hqueue, hunit, hwseg]

/-- Settles O31, by the due unit judged, the records sent and what the cues leave. -/
theorem boundaryPlaysNextUnit : Obligations.boundary_plays_next_unit := by
  intro s c hmain hclock hs hc ho hp
  have ht : unitBoundaryTick s = boundaryGoes (ticked s) false (nextUnit s) := unitBoundaryTick_within hc hs ho hp
  have hseq := boundaryGoes_playing_seq (old := ticked s) (f := false) (s := nextUnit s) (c := c) hc hs
  obtain ⟨n, p, r, fl, -, hstands⟩ := boundaryGoes_seq (old := ticked s) (f := false) (s := nextUnit s) (c := c) hc
  obtain ⟨heyes, hfirst, hleft, hconcealed, hqueue, hpace⟩ :=
    boundaryGoes_picture (old := ticked s) (f := false) (v := nextUnit s) (c := c) hc hs
  rw [← ht] at hseq hstands heyes hfirst hleft hconcealed hqueue hpace
  refine ⟨_, exec_unitBoundary hmain hclock, by rw [hstands]; exact hs, by rw [hstands]; exact hc, by rw [hstands]; rfl,
    by rw [hstands]; rfl, by rw [hstands]; rfl, by rw [hstands]; rfl, heyes, hpace, unitBoundaryTick_only s, fun hseg => ?_⟩
  intro u first good hidden later
  have outcome : ∀ (x : Taken), (takeDue c.segment 0 (stagedFrom (ticked s) false c (nextUnit s))).1 = x →
      (∀ v : UnitRec, x = .ok v → v.seg = c.played → v.unit = u → good v.content) ∧ (∀ e, x = .error e → hidden e) := by
    intro x hx
    rw [hx] at hseq hfirst hleft hconcealed
    refine ⟨fun v hv h1 h2 => ?_, fun e he => ?_⟩
    · rw [hv] at hseq hfirst hleft hconcealed
      rw [shownBy, h1, h2] at hfirst
      rw [leftAfter, h1, h2] at hleft
      exact ⟨hfirst, hleft, hconcealed, congrArg Sequencer.starvation hseq⟩
    · rw [he] at hfirst hleft hconcealed
      exact ⟨hfirst, hleft, hconcealed⟩
  have judged : (∀ v ∈ queueOf s 0, lateFor s 0 (v.seg, .unit v.unit) = false) →
      (takeDue c.segment 0 (stagedFrom (ticked s) false c (nextUnit s))).1 =
        (judgeHead c.segment 0 c.played u (queueOf s 0)).1 ∧
      queueOf (unitBoundaryTick s) 0 =
        if (judgeHead c.segment 0 c.played u (queueOf s 0)).2 then (queueOf s 0).drop 1 else queueOf s 0 := by
    intro hl
    obtain ⟨h1, h2⟩ := next_takeDue hc hs ho hseg hl
    exact ⟨h1, hqueue.trans h2⟩
  refine ⟨fun v rest hq hlater h1 h2 => ?_, fun hlater hne => ?_⟩
  · have hall : ∀ x ∈ queueOf s 0, lateFor s 0 (x.seg, .unit x.unit) = false := by
      rw [hq]
      refine List.forall_mem_cons.mpr ⟨?_, hlater⟩
      rw [h1, h2]
      exact due_not_late hc hs ho
    obtain ⟨hx, hqt⟩ := judged hall
    rw [hq] at hx hqt
    refine ⟨fun a hst ha => ?_, fun x hst => ?_, fun hst => ?_⟩
    · by_cases hok : a.isProtected = c.segment.isProtected ∧
          (c.segment.isProtected = true → a.composition = some c.segment.composition)
      · have hre : recheck c.segment 0 a = none := by
          unfold recheck
          rw [if_neg (by
            rintro (h | ⟨h, hne⟩)
            · exact h hok.1
            · exact hne (hok.2 h)), if_neg (by decide)]
        have hj : judgeHead c.segment 0 c.played u (v :: rest) = (.ok v, true) := by
          simp [judgeHead, h1, h2, hst, ha, hre]
        rw [hj] at hx hqt
        rw [if_pos hok]
        exact ⟨hqt, (outcome _ hx).1 v rfl h1 h2⟩
      · have hre : recheck c.segment 0 a = some .keyMismatch := by
          unfold recheck
          rw [if_pos (by
            by_contra hcon
            obtain ⟨hn1, hn2⟩ := not_or.mp hcon
            exact hok ⟨not_not.mp hn1, fun h => not_not.mp fun hne => hn2 ⟨h, hne⟩⟩)]
        have hj : judgeHead c.segment 0 c.played u (v :: rest) = (.error .keyMismatch, true) := by
          simp [judgeHead, h1, h2, hst, ha, hre]
        rw [hj] at hx hqt
        rw [if_neg hok]
        exact ⟨hqt, (outcome _ hx).2 _ rfl⟩
    · have hj : judgeHead c.segment 0 c.played u (v :: rest) = (.error x, true) := by simp [judgeHead, h1, h2, hst]
      rw [hj] at hx hqt
      exact ⟨hqt, (outcome _ hx).2 _ rfl⟩
    · have hj : judgeHead c.segment 0 c.played u (v :: rest) = (.error .notReady, false) := by
        rcases hst with hst | hst | hst <;> simp [judgeHead, h1, h2, hst]
      rw [hj] at hx hqt
      exact ⟨hqt, (outcome _ hx).2 _ rfl⟩
  · obtain ⟨hx, hqt⟩ := judged hlater
    have hj : judgeHead c.segment 0 c.played u (queueOf s 0) = (.error .missing, false) := by
      cases hq : queueOf s 0 with
      | nil => rfl
      | cons v rest =>
        have hv := hne v (by rw [hq]; exact List.mem_cons_self)
        rw [judgeHead, if_neg (by rintro ⟨h1, h2⟩; exact hv.elim (· h1) (· h2))]
    rw [hj] at hx hqt
    exact ⟨hqt, (outcome _ hx).2 _ rfl⟩

/-! ### LEAD_END and STARVED (R13 step 1, R22) -/

/-- With no P0 unit queued the due unit is MISSING, and the queue stays empty. -/
theorem takeDue_empty {old v : State} {f : Bool} {c : Context} (h : queueOf v 0 = []) :
    (takeDue c.segment 0 (stagedFrom old f c v)).1 = .error .missing := by
  have hw : queueOf (stagedFrom old f c v) 0 = [] := by rw [queueOf_stagedFrom, h, List.filter_nil]
  rw [takeDue_fst, queueOf_discardHeads (by decide) fun u hu => absurd (hw ▸ hu) List.not_mem_nil, hw, judgeHead]

/-- A concealed unit that brings the starvation count to its limit makes the starved pause pending (R22). -/
theorem handed_starves {q : Sequencer} {x : Cause} (hs : q.state = .playing) (hpos : 0 < q.starveLimit)
    (hlow : q.starvation < 240) (hreach : q.starveLimit ≤ q.starvation + 1) :
    q.handed (.error x) = { q with
      starvation := q.starvation + 1
      pend := { q.pend with pause := some .starved, resume := false } } := by
  have hadd : addTo 240 q.starvation 1 = q.starvation + 1 := Nat.min_eq_right hlow
  have hstarves : ({ q with starvation := q.starvation + 1 } : Sequencer).starves = true := by
    simp [Sequencer.starves, hs, hpos, hreach]
  simp only [Sequencer.handed, hadd, hstarves, if_true]

/-- Settles O36: both rows are the boundary, which begins PLAYING or conceals the unit it finds missing. -/
theorem leadEndAndStarvedAreBoundaries : Obligations.lead_end_and_starved_are_boundaries := by
  intro s c hmain hclock hc hp
  have hdue : boundaryDue s = true := by rw [boundaryDue, powered, hmain, hclock]; rfl
  refine ⟨fun hs h1 => ?_, fun hs ho hq hpos _ hlow hreach => ?_⟩
  · have ht := unitBoundaryTick_lead hs (Nat.le_of_eq h1) hp
    obtain ⟨n, p, r, fl, -, he⟩ := boundaryGoes_seq (old := ticked s) (f := false) (s := s.withSeq { s.seq with
      tickCount := 0
      showingTime := s.seq.showingTime + s.seq.ticksPerUnit
      leadRemaining := 0
      state := .playing
      offset := 0 }) (c := c) hc
    have hlead : leadEndDue s = true := by simp [leadEndDue, hdue, hs, h1]
    refine ⟨unitBoundaryTick s, ?_, exec_unitBoundary hmain hclock, ?_⟩
    · show Host.Outcome.next (if leadEndDue s then unitBoundaryTick s else s) = _
      rw [if_pos hlead]
    · refine ⟨?_, ?_, ?_, ?_, unitBoundaryTick_only s⟩
      all_goals
        rw [ht, he]
        rfl
  · have ht : unitBoundaryTick s = boundaryGoes (ticked s) false (nextUnit s) := unitBoundaryTick_within hc hs ho hp
    have hseq := boundaryGoes_playing_seq (old := ticked s) (f := false) (s := nextUnit s) (c := c) hc hs
    obtain ⟨-, -, -, hconcealed, -, -⟩ :=
      boundaryGoes_picture (old := ticked s) (f := false) (v := nextUnit s) (c := c) hc hs
    rw [takeDue_empty (v := nextUnit s) hq] at hseq hconcealed
    rw [handed_starves (by exact hs) (by exact hpos) (by exact hlow) (by exact hreach)] at hseq
    rw [← ht] at hseq hconcealed
    have hpend : (unitBoundaryTick s).seq.pend.pause = some .starved := by rw [hseq]
    have hstarved : starvedDue s = true := by rw [starvedDue, hdue, hpend]; rfl
    refine ⟨unitBoundaryTick s, ?_, exec_unitBoundary hmain hclock, hpend, ?_, ?_, ?_, hconcealed⟩
    · show Host.Outcome.next (if starvedDue s then unitBoundaryTick s else s) = _
      rw [if_pos hstarved]
    · exact congrArg Sequencer.starvation hseq
    · exact (congrArg Sequencer.state hseq).trans hs
    · exact congrArg Sequencer.offset hseq

end Sys2Proof.Machine
end

section
/-! PROOF. A unit boundary that ends the showing: what R18 leaves of each block, and the reports a boundary adds (R54, R91,
R97, R123, R165, R187). -/

namespace Sys2Proof.Machine

/-! ### Reports with a property -/

/-- Reports with P, any number of them, joined the end of the report queue (R186). -/
def Adds (P : Report → Prop) (s t : State) : Prop := ∃ k, Raised P k s.reports t.reports

section adds
variable {P : Report → Prop}

theorem Adds.refl (s : State) : Adds P s s := ⟨0, .refl P _⟩

theorem Adds.trans {s t u : State} (h : Adds P s t) (k : Adds P t u) : Adds P s u := by
  obtain ⟨n, hn⟩ := h
  obtain ⟨m, hm⟩ := k
  exact ⟨n + m, hn.trans hm⟩

theorem Adds.of_only {ps : List Part} {s t : State} (h : Only ps s t) (hp : Part.reports ∉ ps) : Adds P s t :=
  ⟨0, (show t.reports = s.reports from h.eq .reports hp) ▸ .refl P _⟩

theorem Adds.ite {s t u : State} (c : Prop) [Decidable c] (h : Adds P s t) (k : Adds P s u) :
    Adds P s (if c then t else u) := by
  split
  · exact h
  · exact k

theorem Adds.foldl {α : Type} (f : State → α → State) (h : ∀ s a, Adds P s (f s a)) (l : List α) (s : State) :
    Adds P s (l.foldl f s) := by
  induction l generalizing s with
  | nil => exact .refl s
  | cons a l ih => exact (h s a).trans (ih _)

/-- P says something of LICENCE_STATE reports alone. -/
def OfOthers (P : Report → Prop) : Prop := ∀ x : Report, x.kind ≠ .licenceState → P x

variable (hP : OfOthers P)
include hP

theorem raise_adds (k : ReportKind) (hk : k ≠ .licenceState) (a b : Nat) (s : State) : Adds P s (raise k a b s) :=
  ⟨1, offer_raised (r := stamped k (showingNow s) a b s) _ (hP _ hk)⟩

theorem boundaryUnit_adds (s : State) : Adds P s (boundaryUnit s) :=
  Adds.ite _
    (((Adds.of_only ((only_withSeq s _).trans (feedResult_only _ _)) (by decide)).trans
      (raise_adds hP .segmentEnd (by decide) _ _ _)).trans (.of_only (textSegmentEnd_only _ _) (by decide)))
    (.of_only ((only_withSeq s _).trans (only_withSeq _ _)) (by decide))

theorem closeShowing_adds (c : EndCause) (n : Nat) (s : State) : Adds P s (closeShowing c n s) := by
  refine ⟨4, (closeShowing_raised c n s).mono (fun x hx => hP x fun e => ?_) (Nat.le_refl 4)⟩
  rw [OfClose, OfLog, e] at hx
  simp at hx

theorem performCue_adds (i : Nat) (a : CueAction) (s : State) : Adds P s (performCue i a s) := by
  cases a with
  | line n x => exact .of_only (lineAct_only n x s) (by decide)
  | flag x y z => exact .of_only (setFlagsBy_only x y z s) (by decide)
  | mark v => exact raise_adds hP .mark (by decide) v i s
  | sound p => exact Adds.ite _ (.refl s) (.of_only (only_withSound s _) (by decide))

theorem fireIf_adds (b : Bool) (g : Segment) (f : Anchor → Bool) (s : State) : Adds P s (fireIf b g f s) :=
  Adds.ite _ (Adds.foldl _ (fun u i => Adds.ite _ (performCue_adds hP i _ u) (.refl u)) _ s) (.refl s)

theorem fireEndCues_adds (g : Segment) (c : EndCause) (s : State) : Adds P s (fireEndCues g c s) :=
  (fireIf_adds hP _ _ _ s).trans (fireIf_adds hP _ _ _ _)

end adds

/-! ### The stores emptied (R54, R123) -/

theorem setAssembly_queues (slot : Nat) (a : Assembly) (s : State) :
    (setAssembly slot a s).track.queues = s.track.queues := rfl

/-- What the end of a showing leaves of the queues: nothing (R54). -/
theorem queueOf_emptyQueues (s : State) {k : Nat} (hk : k < 4) : queueOf (emptyQueues s) k = [] := by
  have skips : ∀ (l : List Nat) (u : State), (l.foldl (fun s slot =>
      if assemblyOf s slot = .opened then setAssembly slot .skipping s else s) u).track.queues = u.track.queues := by
    intro l
    induction l with
    | nil => exact fun u => rfl
    | cons i l ih =>
      intro u
      rw [List.foldl_cons, ih]
      split
      · exact setAssembly_queues i .skipping u
      · rfl
  have drops : ∀ u : State, queueOf ((List.range 4).foldl (fun s slot => dropUnits slot (fun _ => true) s) u) k = [] := by
    intro u
    refine walk_induct (f := fun s slot => dropUnits slot (fun _ => true) s)
      (fun n t => ∀ j, j < n → queueOf t j = []) nofun 4 (fun n t hn ih j hj => ?_) k hk
    by_cases e : j = n
    · rw [e, dropUnits, queueOf_leaveQueue hn]
      exact List.filter_eq_nil_iff.mpr fun _ _ => by simp
    · rw [dropUnits, queueOf_leaveQueue_other e]
      exact ih j (by omega)
  rw [emptyQueues, queueOf, skips]
  exact drops s

theorem freeResources_queues (gone : Resource → Bool) (s : State) :
    (freeResources gone s).track.queues = s.track.queues := by
  have abandoned : ∀ (is : UnpackJob → Bool) (n : Nat) (u : State), (markAbandoned is n u).track = u.track := fun is n u =>
    (markAbandoned_only is n u).eq .track (by decide)
  have skip : ∀ (b : Bool) (slot : Nat) (u : State),
      (if b then setAssembly slot .skipping u else u).track.queues = u.track.queues := by
    intro b slot u
    cases b <;> rfl
  unfold freeResources
  dsimp only
  rw [abandoned, skip, skip]
  rfl

theorem clearDisplays_store (s : State) : (clearDisplays s).text.store = s.text.store := by
  have h : (s.text.captions.foldl clearIfShowing s).text = s.text :=
    (Only.foldl _ clearIfShowing_only s.text.captions s).eq .text (by decide)
  show (s.text.captions.foldl clearIfShowing s).text.store = _
  rw [h]

/-- What the end of a showing leaves of the text store: nothing (R123). -/
theorem textShowingEnd_store (s : State) : (textShowingEnd s).text.store = [] := by
  rw [textShowingEnd, clearDisplays_store, freeResources_store]
  exact List.filter_eq_nil_iff.mpr fun _ _ => by simp

theorem textShowingEnd_queues (s : State) : (textShowingEnd s).track.queues = s.track.queues := by
  have h : (textShowingEnd s).track = (freeResources (fun _ => true) s).track :=
    (clearDisplays_only _).eq .track (by decide)
  rw [h, freeResources_queues]

/-! ### The end of a showing (R18) -/

/-- The showing's entries released and its stores emptied, the record not yet closed. -/
def showingEmptied (s : State) : State := textShowingEnd (emptyQueues (releaseAll s))

/-- The Sequencer in IDLE, as the record is closed. -/
def showingIdle (cause : EndCause) (s : State) : State :=
  raise .showState SeqState.idle.code cause.code ((showingEmptied s).withSeq (showingEmptied s).seq.ended)

theorem showingEmptied_only (s : State) : Only [.licences, .reports, .track, .engine, .text, .caption, .recorder] s
    (showingEmptied s) :=
  (((releaseAll_only s).trans (emptyQueues_only _)).trans (textShowingEnd_only _)).mono (by decide)

theorem showingIdle_only (cause : EndCause) (s : State) : Only [.seq, .reports] (showingEmptied s) (showingIdle cause s) :=
  (only_withSeq _ _).trans (raise_only _ _ _ _)

theorem showingEmptied_seq (s : State) : (showingEmptied s).seq = s.seq := (showingEmptied_only s).eq .seq (by decide)

theorem showingIdle_seq (cause : EndCause) (s : State) : (showingIdle cause s).seq = s.seq.ended := by
  have h : (showingIdle cause s).seq = (showingEmptied s).seq.ended :=
    (raise_only .showState SeqState.idle.code cause.code _).eq .seq (by decide)
  rw [h, showingEmptied_seq]

theorem showingIdle_feeds (cause : EndCause) (s : State) : Feeds s (showingIdle cause s) :=
  ((Feeds.of_only ((releaseAll_only s).trans (emptyQueues_only _)) (by decide)).trans (textShowingEnd_feeds _)).trans
    (.of_only (showingIdle_only cause s) (by decide))

/-- The end of a showing, its record closed last (R18). -/
theorem endShowing_closes (cause : EndCause) (s : State) :
    Only [.sound, .picture] (closeShowing cause (pauseInProgress s.seq) (showingIdle cause s)) (endShowing cause s) :=
  (only_withSound _ _).trans (only_withPicture _ _)

theorem endShowing_seq (cause : EndCause) (s : State) : (endShowing cause s).seq = s.seq.ended := by
  have h := ((closeShowing_only cause (pauseInProgress s.seq) (showingIdle cause s)).trans (endShowing_closes cause s)).eq
    .seq (by decide)
  exact h.trans (showingIdle_seq cause s)

theorem endShowing_recorder (cause : EndCause) (s : State) : (endShowing cause s).recorder =
    (closeShowing cause (pauseInProgress s.seq) (showingIdle cause s)).recorder :=
  (endShowing_closes cause s).eq .recorder (by decide)

/-- After R18 the queues, the text store and both picture stores are empty. -/
theorem endShowing_empties (cause : EndCause) (s : State) : (∀ k, k < 4 → queueOf (endShowing cause s) k = []) ∧
    (endShowing cause s).text.store = [] ∧ (endShowing cause s).picture.left = none ∧
      (endShowing cause s).picture.right = none := by
  have h := ((showingIdle_only cause s).trans (closeShowing_only cause (pauseInProgress s.seq) _)).trans
    (endShowing_closes cause s)
  have htrack : (endShowing cause s).track = (showingEmptied s).track := h.eq .track (by decide)
  have htext : (endShowing cause s).text = (showingEmptied s).text := h.eq .text (by decide)
  refine ⟨fun k hk => ?_, ?_, rfl, rfl⟩
  · rw [queueOf, htrack, showingEmptied, textShowingEnd_queues]
    exact queueOf_emptyQueues _ hk
  · rw [htext, showingEmptied, textShowingEnd_store]

/-- The reports of R18 are the release's, with its position, and others. -/
theorem endShowing_adds {P : Report → Prop} (hP : OfOthers P) (cause : EndCause) {s : State}
    (h : ∀ x, LicenceStateAt s x → P x) : Adds P s (endShowing cause s) := by
  have released : Adds P s (releaseAll s) := ⟨64, (releaseAll_raised s).mono h (Nat.le_refl 64)⟩
  have emptied : Adds P (releaseAll s) (showingEmptied s) :=
    .of_only ((emptyQueues_only _).trans (textShowingEnd_only _)) (by decide)
  have idle : Adds P (showingEmptied s) (showingIdle cause s) :=
    (Adds.of_only (only_withSeq _ _) (by decide)).trans (raise_adds hP .showState (by decide) _ _ _)
  exact ((released.trans emptied).trans idle).trans
    ((closeShowing_adds hP _ _ _).trans (.of_only (endShowing_closes cause s) (by decide)))

/-! ### A boundary that ends the showing -/

/-- What follows R18 at the boundary: the cues of the segment that was in progress, and PACE. -/
theorem boundaryEnds_tail (old : State) (cause : EndCause) (s : State) :
    Only [.lines, .seq, .reports, .sound, .lane] (endShowing cause (positionKept old s)) (boundaryEnds old cause s) ∧
    (endShowing cause (positionKept old s)).seq.Flagged (boundaryEnds old cause s).seq ∧
    ∀ {P : Report → Prop}, OfOthers P → Adds P (endShowing cause (positionKept old s)) (boundaryEnds old cause s) := by
  unfold boundaryEnds
  dsimp only
  generalize endShowing cause (positionKept old s) = u
  have paced : ∀ v : State, Only [.lane] v (formPace v) := formPace_only
  split
  · rename_i c _
    exact ⟨((fireEndCues_only c.segment cause u).trans (paced _)).mono (by decide),
      (fireEndCues_flagged _ _ u).trans (flagged_of_only (paced _) (by decide)),
      fun hP => (fireEndCues_adds hP _ _ u).trans (.of_only (paced _) (by decide))⟩
  · exact ⟨(paced u).mono (by decide), flagged_of_only (paced u) (by decide), fun _ => .of_only (paced u) (by decide)⟩

/-- The queues, the text store and both picture stores are empty after it (R54, R76, R123). -/
theorem boundaryEnds_empties (old : State) (cause : EndCause) (s : State) :
    (∀ k, k < 4 → queueOf (boundaryEnds old cause s) k = []) ∧ (boundaryEnds old cause s).text.store = [] ∧
      (boundaryEnds old cause s).picture.left = none ∧ (boundaryEnds old cause s).picture.right = none := by
  obtain ⟨h, -, -⟩ := boundaryEnds_tail old cause s
  have htrack : (boundaryEnds old cause s).track = _ := h.eq .track (by decide)
  have htext : (boundaryEnds old cause s).text = _ := h.eq .text (by decide)
  have hpicture : (boundaryEnds old cause s).picture = _ := h.eq .picture (by decide)
  unfold queueOf
  rw [htrack, htext, hpicture]
  exact endShowing_empties cause (positionKept old s)

/-- The LICENCE_STATE reports of the boundary are the release's, at the position the boundary before it left (R28). -/
theorem boundaryEnds_adds {P : Report → Prop} (hP : OfOthers P) {old : State} (cause : EndCause)
    (h : ∀ x, LicenceStateAt old x → P x) (s : State) : Adds P s (boundaryEnds old cause s) := by
  obtain ⟨-, -, htail⟩ := boundaryEnds_tail old cause s
  exact ((Adds.of_only (positionKept_only old s) (by decide)).trans
    (endShowing_adds hP cause (s := positionKept old s) h)).trans (htail hP)

/-- The Sequencer of a boundary that ends the showing is in IDLE at 0, 0 with its clock stopped (R18, R28). -/
theorem boundaryEnds_seq (old : State) (cause : EndCause) (s : State) :
    (positionKept old s).seq.ended.Flagged (boundaryEnds old cause s).seq := by
  obtain ⟨-, h, -⟩ := boundaryEnds_tail old cause s
  rw [endShowing_seq] at h
  exact h

/-- An OPEN record is closed with the cause (R165). -/
theorem boundaryEnds_closed (old : State) (cause : EndCause) {s : State} (h : s.recorder.status = .opened) :
    (boundaryEnds old cause s).recorder.status = .closed ∧
      (boundaryEnds old cause s).recorder.record.endCause = some cause := by
  have hr : (boundaryEnds old cause s).recorder = (endShowing cause (positionKept old s)).recorder :=
    (boundaryEnds_tail old cause s).1.eq .recorder (by decide)
  have hopen : (showingIdle cause (positionKept old s)).recorder.status = .opened := by
    rw [(showingIdle_feeds cause (positionKept old s)).status]
    exact h
  obtain ⟨hs, he, -, -⟩ := closeShowing_opened cause (pauseInProgress (positionKept old s).seq) _ hopen
  rw [hr, endShowing_recorder]
  exact ⟨hs, he⟩

/-- With a stop or a timeout pending the boundary ends the showing after the unit that ended (R13 steps 2 and 3). -/
theorem unitBoundaryTick_ends {s : State} (h : s.seq.pend.stop = true ∨ s.seq.pend.timeout = true) :
    unitBoundaryTick s = boundaryEnds (ticked s)
      (if s.seq.pend.stop then (if s.seq.state = .cued then .cancelled else .stopped) else .pauseTimeout)
      (boundaryUnit (ticked s)) := by
  show boundaryActs (ticked s) = _
  have hstop : (ticked s).seq.pend.stop = s.seq.pend.stop := rfl
  have htime : (ticked s).seq.pend.timeout = s.seq.pend.timeout := rfl
  have hstate : (ticked s).seq.state = s.seq.state := rfl
  rw [boundaryActs, handleBoundary, hstop, htime, hstate]
  by_cases hs : s.seq.pend.stop = true
  · rw [if_pos hs, if_pos hs]
  · rw [if_neg hs, if_neg hs, if_pos (h.resolve_left hs)]

/-- A LICENCE_STATE report carries the position given. -/
def PlacedAt (seg offset : Nat) (x : Report) : Prop := x.kind = .licenceState → x.seg = seg ∧ x.offset = offset

/-- Settles O34, by what R18 leaves of each block and the cues after it leave standing. -/
theorem boundaryEndsShowing : Obligations.boundary_ends_showing := by
  intro s hmain hclock hpend
  have hP : OfOthers (PlacedAt s.seq.seg s.seq.offset) := fun x hx hk => absurd hk hx
  have ht := unitBoundaryTick_ends hpend
  generalize (if s.seq.pend.stop then (if s.seq.state = .cued then EndCause.cancelled else .stopped) else .pauseTimeout)
    = cause at ht ⊢
  have hunit : Feeds s (boundaryUnit (ticked s)) := (Feeds.of_only (only_withSeq s _) (by decide)).trans (boundaryUnit_feeds _)
  have hadds : Adds (PlacedAt s.seq.seg s.seq.offset) s (boundaryUnit (ticked s)) :=
    (Adds.of_only (only_withSeq s _) (by decide)).trans (boundaryUnit_adds hP (ticked s))
  refine ⟨_, exec_unitBoundary hmain hclock, ?_⟩
  rw [ht]
  generalize boundaryUnit (ticked s) = u at hunit hadds
  have hseq := boundaryEnds_seq (ticked s) cause u
  have hunbound := (boundaryEnds_released (ticked s) cause u).2 (releaseAll_unbound _)
  have hclosed := boundaryEnds_closed (ticked s) cause (s := u)
  obtain ⟨hqueues, hstore, hleft, hright⟩ := boundaryEnds_empties (ticked s) cause u
  obtain ⟨k, hk⟩ := hadds.trans (boundaryEnds_adds hP (old := ticked s) cause (fun x hx _ => hx.2) u)
  obtain ⟨new, hnew, -, hplace⟩ := hk.queue
  rw [hunit.status] at hclosed
  generalize boundaryEnds (ticked s) cause u = t at *
  rw [hseq]
  exact ⟨rfl, rfl, rfl, rfl, rfl, rfl, rfl, hunbound, hqueues, hstore, hleft, hright, ⟨new, hnew, hplace⟩, hclosed⟩

end Sys2Proof.Machine
end

section
/-! PROOF. What the outputs of a unit leave before the pair flips and the showing is counted (R19, R31, R32): figures fed,
reports added, and of the Sequencer the starvation count and the pending controls. -/

namespace Sys2Proof.Machine

/-! ### The Sequencer's outcome handed (R22) -/

/-- The Sequencer changed in its starvation count and its pending controls alone. -/
def Sequencer.Handled (q r : Sequencer) : Prop := r = { q with starvation := r.starvation, pend := r.pend }

theorem Sequencer.Handled.refl (q : Sequencer) : q.Handled q := rfl

theorem Sequencer.Handled.trans {q r x : Sequencer} (h : q.Handled r) (k : r.Handled x) : q.Handled x := by
  unfold Sequencer.Handled at *
  rw [k, h]

/-! ### Outputs carried -/

/-- The blocks that the outputs of a unit change before the flip and the count. -/
def carriedParts : List Part :=
  [.track, .engine, .link, .picture, .reports, .sound, .recorder, .text, .caption, .seq]

/-- What the outputs of a unit leave of a state before the flip and the count. -/
structure Carried (s t : State) : Prop where
  only : Only carriedParts s t
  feeds : Feeds s t
  adds : Adds (fun _ => True) s t
  seq : s.seq.Handled t.seq

theorem Carried.refl (s : State) : Carried s s := ⟨Only.refl _ s, .refl s, .refl s, .refl _⟩

theorem Carried.trans {s t u : State} (h : Carried s t) (k : Carried t u) : Carried s u :=
  ⟨h.only.comp k.only, h.feeds.trans k.feeds, h.adds.trans k.adds, h.seq.trans k.seq⟩

theorem Carried.ite {s t u : State} (c : Prop) [Decidable c] (h : Carried s t) (k : Carried s u) :
    Carried s (if c then t else u) := by
  split
  · exact h
  · exact k

theorem Carried.foldl {α : Type} (f : State → α → State) (h : ∀ s a, Carried s (f s a)) (l : List α) (s : State) :
    Carried s (l.foldl f s) := by
  induction l generalizing s with
  | nil => exact .refl s
  | cons a l ih => exact (h s a).trans (ih _)

/-- What changes none of the record, the reports and the Sequencer. -/
theorem Carried.of_only {ps : List Part} {s t : State} (h : Only ps s t) (sub : ps ⊆ carriedParts)
    (hr : Part.recorder ∉ ps) (hp : Part.reports ∉ ps) (hs : Part.seq ∉ ps) : Carried s t :=
  ⟨h.mono sub, .of_only h hr, .of_only h hp, (show t.seq = s.seq from h.eq .seq hs) ▸ .refl _⟩

/-- What feeds the record and changes neither the reports nor the Sequencer. -/
theorem Carried.of_feeds {ps : List Part} {s t : State} (h : Only ps s t) (hf : Feeds s t) (sub : ps ⊆ carriedParts)
    (hp : Part.reports ∉ ps) (hs : Part.seq ∉ ps) : Carried s t :=
  ⟨h.mono sub, hf, .of_only h hp, (show t.seq = s.seq from h.eq .seq hs) ▸ .refl _⟩

theorem raise_carried (k : ReportKind) (hk : k ≠ .licenceState) (a b : Nat) (s : State) : Carried s (raise k a b s) :=
  have h := raise_only k a b s
  ⟨h.mono (by decide), .of_only h (by decide), raise_adds (P := fun _ => True) (fun _ _ => trivial) k hk a b s,
    (show (raise k a b s).seq = s.seq from h.eq .seq (by decide)) ▸ .refl _⟩

theorem feedResult_carried (f : SegResult → SegResult) (s : State) : Carried s (feedResult f s) :=
  .of_feeds (feedResult_only f s) (feedResult_feeds f s) (by decide) (by decide) (by decide)

theorem countCueDropped_carried (s : State) : Carried s (countCueDropped s) :=
  .of_feeds (feedRecord_only _ s) (countCueDropped_feeds s) (by decide) (by decide) (by decide)

theorem withText_carried (s : State) (x : TextEngine) : Carried s (s.withText x) :=
  .of_only (only_withText s x) (by decide) (by decide) (by decide) (by decide)

/-! ### Text and captions (R125, R127, R134 to R137) -/

theorem pushCaption_carried (m : List Byte) (s : State) : Carried s (pushCaption m s) :=
  .of_only (pushCaption_only m s) (by decide) (by decide) (by decide) (by decide)

theorem markShown_carried (d : Displayed) (s : State) : Carried s (markShown d s).2 :=
  .of_feeds (markShown_only d s) (markShown_feeds d s) (by decide) (by decide) (by decide)

theorem queueShow_carried (d : Displayed) (s : State) : Carried s (queueShow d s).2 := by
  unfold queueShow
  dsimp only
  split
  · exact (pushCaption_carried _ s).trans (markShown_carried d _)
  · split
    · exact ((pushCaption_carried _ s).trans (raise_carried _ (by decide) _ _ _)).trans (markShown_carried d _)
    · exact (countCueDropped_carried s).trans (raise_carried _ (by decide) _ _ _)

theorem clearIfShowing_carried (s : State) (d : Displayed) : Carried s (clearIfShowing s d) :=
  .of_feeds (clearIfShowing_only s d) (clearIfShowing_feeds s d) (by decide) (by decide) (by decide)

theorem reshowCaptions_carried (l : List Displayed) (s : State) : Carried s (reshowCaptions l s).2 := by
  induction l generalizing s with
  | nil => exact .refl s
  | cons d l ih =>
    unfold reshowCaptions
    dsimp only
    split
    · exact (queueShow_carried _ s).trans (ih _)
    · exact ih s

theorem admitT0_carried (s : State) (c : Cue) : Carried s (admitT0 s c) := by
  unfold admitT0
  split
  · have shown : ∀ u : State, Carried u (countMissing u) := fun u =>
      .of_feeds (feedRecord_only _ u) (countMissing_feeds u) (by decide) (by decide) (by decide)
    exact Carried.ite _ (withText_carried s _) ((withText_carried s _).trans (shown _))
  · exact (countCueDropped_carried s).trans (raise_carried _ (by decide) _ _ _)

theorem admitT1_carried (w : Bool) (s : State) (c : Cue) : Carried s (admitT1 w s c) := by
  unfold admitT1
  dsimp only
  split
  · exact withText_carried s _
  · exact (queueShow_carried _ s).trans (withText_carried _ _)

theorem runT0_carried (last u : Nat) (s : State) : Carried s (runT0 last u s) :=
  (withText_carried s _).trans (Carried.foldl _ admitT0_carried _ _)

theorem runT1_carried (last u : Nat) (resumed : Bool) (s : State) : Carried s (runT1 last u resumed s) := by
  have tail : ∀ (l : List Displayed) (cs : List Cue) (x : TextEngine) (v : State),
      Carried v (cs.foldl (admitT1 false) ((setCaptions l v).withText x)) := fun l cs x v =>
    ((withText_carried v _).trans (withText_carried _ x)).trans (Carried.foldl _ (admitT1_carried false) _ _)
  have lead := Carried.foldl _ clearIfShowing_carried (s.text.captions.filter (fun d => decide (d.cue.outPoint ≤ u))) s
  unfold runT1
  dsimp only
  split
  · exact (lead.trans (reshowCaptions_carried _ _)).trans (tail _ _ _ _)
  · exact lead.trans (tail _ _ _ _)

theorem loadList_carried (g : Segment) (slot : Nat) (s : State) : Carried s (loadList g slot s) :=
  .of_feeds (loadList_only g slot s) (loadList_feeds g slot s) (by decide) (by decide) (by decide)

theorem runText_carried (c : Context) (r : Bool) (s : State) : Carried s (runText c r s) :=
  ((Carried.ite _ ((loadList_carried _ _ s).trans (loadList_carried _ _ _)) (.refl s)).trans (runT0_carried _ _ _)).trans
    (runT1_carried _ _ _ _)

theorem markOverlay_carried (u : Nat) (s : State) (i : Nat) : Carried s (markOverlay u s i) :=
  .of_feeds (markOverlay_only u s i) (markOverlay_feeds u s i) (by decide) (by decide) (by decide)

/-! ### Due units and the unit's outputs (R72 to R77, R22) -/

theorem concealSlot_carried (slot : Nat) (c : Cause) (s : State) : Carried s (concealSlot slot c s) :=
  Carried.ite _ (.refl s) ((Carried.of_only (only_withPicture s _) (by decide) (by decide) (by decide) (by decide)).trans
    (raise_carried _ (by decide) _ _ _))

theorem takeDue_carried (g : Segment) (slot : Nat) (s : State) : Carried s (takeDue g slot s).2 := by
  have heads : Carried s (discardHeads slot s) :=
    .of_only (discardHeads_only slot s) (by decide) (by decide) (by decide) (by decide)
  have leaves : ∀ (b : Bool) (l : List UnitRec) (u : State), Carried u (if b then setQueue slot l u else u) :=
    fun b l u => Carried.ite _ (.of_only (setQueue_only slot l u) (by decide) (by decide) (by decide) (by decide)) (.refl u)
  unfold takeDue
  dsimp only
  split
  · exact (heads.trans (leaves _ _ _)).trans
      (.of_only (only_withPicture _ _) (by decide) (by decide) (by decide) (by decide))
  · exact (heads.trans (leaves _ _ _)).trans (concealSlot_carried _ _ _)

theorem takeRight_carried (g : Segment) (s : State) : Carried s (takeRight g s).2 := by
  unfold takeRight
  split
  · exact takeDue_carried g 1 s
  · exact .refl s

theorem withSeq_carried {s : State} {q : Sequencer} (h : s.seq.Handled q) : Carried s (s.withSeq q) :=
  ⟨(only_withSeq s q).mono (by decide), .of_only (only_withSeq s q) (by decide), .of_only (only_withSeq s q) (by decide), h⟩

theorem handOutcome_carried (x : Taken) (s : State) : Carried s (handOutcome x s) := by
  unfold handOutcome
  split
  · exact withSeq_carried (by exact rfl)
  · have counted : Carried s (s.withSeq { s.seq with starvation := addTo 240 s.seq.starvation 1 }) := withSeq_carried (by exact rfl)
    have starved : ∀ u : State, Carried u (starve u) := fun u =>
      (withSeq_carried (by exact rfl)).trans (raise_carried _ (by decide) _ _ _)
    exact Carried.ite _ (counted.trans (starved _)) counted

/-- The outcomes of a unit carried out end with the flip of the pair and the count (R19, R32). -/
theorem carryOutput_carried (c : Context) (r : Bool) (a0 : Taken) (a1 : Option Taken) (a2 a3 : Taken) (s : State) :
    ∃ w, Carried s w ∧ carryOutput c r a0 a1 a2 a3 s = countAtPoint c (flipPair c w) := by
  have fed : Carried s (s.withSound (s.sound.fed a2 a3)) :=
    .of_only (only_withSound s _) (by decide) (by decide) (by decide) (by decide)
  have sent : ∀ (l : List Overlay) (u : State), Carried u (sendRecords c.segment a0 a1 l u) := fun l u =>
    .of_only (sendRecords_only _ a0 a1 l u) (by decide) (by decide) (by decide) (by decide)
  refine ⟨_, ?_, rfl⟩
  refine Carried.trans ?_ (handOutcome_carried _ _)
  refine Carried.trans ?_ (sent _ _)
  refine Carried.trans ?_ (Carried.foldl _ (markOverlay_carried _) _ _)
  refine Carried.trans ?_ (runText_carried c r _)
  exact ((fed.trans (feedResult_carried _ _)).trans (feedResult_carried _ _)).trans (feedResult_carried _ _)

theorem beginOutput_carried (c : Context) (r : Bool) (s : State) :
    ∃ w, Carried s w ∧ beginOutput c r s = countAtPoint c (flipPair c w) := by
  have due := takeDue_carried c.segment
  rw [beginOutput_eq]
  obtain ⟨w, hw, he⟩ := carryOutput_carried c r (takeDue c.segment 0 s).1 (takeRight c.segment (takeDue c.segment 0 s).2).1
    (takeDue c.segment 2 (takeRight c.segment (takeDue c.segment 0 s).2).2).1
    (takeDue c.segment 3 (takeDue c.segment 2 (takeRight c.segment (takeDue c.segment 0 s).2).2).2).1
    (takeDue c.segment 3 (takeDue c.segment 2 (takeRight c.segment (takeDue c.segment 0 s).2).2).2).2
  exact ⟨w, ((((due 0 s).trans (takeRight_carried c.segment _)).trans (due 2 _)).trans (due 3 _)).trans hw, he⟩

theorem beginBlack_carried (c : Context) (b : Bool) (s : State) : Carried s (beginBlack c b s) :=
  .of_feeds (beginBlack_only c b s) (beginBlack_feeds c b s) (by decide) (by decide) (by decide)

/-! ### A boundary that goes on -/

theorem stagedFrom_carried (old : State) (f : Bool) (c : Context) (s : State) : Carried s (stagedFrom old f c s) := by
  have cleared : Carried s (s.withSeq { s.seq with pend := .none }) := withSeq_carried (by exact rfl)
  have reported : Carried s (boundaryReported old s) :=
    cleared.trans (Carried.ite _ (raise_carried _ (by decide) _ _ _) (.refl _))
  exact reported.trans (.of_only (boundaryStaged_only old f c _) (by decide) (by decide) (by decide) (by decide))

/-- The state as the cues of the boundary find it: the unit's outputs carried, and where it is PLAYING the pair flipped and
the showing counted. -/
theorem boundaryGoes_carried {old s : State} {f : Bool} {c : Context} (hc : s.seq.ctx = some c) :
    ∃ w, Carried s w ∧ boundaryGoes old f s = formPace (fireCues c (enteredPause old s) (leftPause old s)
      (if s.seq.state = .playing then countAtPoint c (flipPair c w) else w)) := by
  have hstate : (stagedFrom old f c s).seq.state = s.seq.state := by rw [stagedFrom_seq]
  have staged := stagedFrom_carried old f c s
  rw [boundaryGoes_eq hc, boundaryCarries, hstate]
  by_cases hp : s.seq.state = .playing
  · obtain ⟨w, hw, he⟩ := beginOutput_carried c (leftPause old s) (stagedFrom old f c s)
    exact ⟨w, staged.trans hw, by rw [if_pos hp, if_pos hp, he]⟩
  · exact ⟨_, staged.trans (beginBlack_carried c (enteredPause old s) _), by rw [if_neg hp, if_neg hp]⟩

end Sys2Proof.Machine
end

section
/-! PROOF. The boundary that ends the last unit of a segment: the entry selected next, the results that stand, and the
showing's end where no entry is found (R10 to R13, R159). -/

namespace Sys2Proof.Machine

/-! ### Selection (R10) -/

/-- Entry j may be selected on its own: not alternate-only, and its condition holds (R10). -/
def fits (l : Vector Entry 128) (flags : Mask8) (j : Nat) : Bool :=
  !(bankGet l j).altOnly && (bankGet l j).cond.holds flags

theorem fits_iff (l : Vector Entry 128) (flags : Mask8) (j : Nat) :
    fits l flags j = true ↔ (bankGet l j).altOnly = false ∧ (bankGet l j).cond.holds flags = true := by
  simp [fits]

/-- A selection finds the first entry looked at that fits. -/
theorem selectFrom_find (l : Vector Entry 128) (flags : Mask8) (js : List Nat) :
    (selectFrom l flags js).2 = js.find? (fits l flags) := by
  induction js with
  | nil => rfl
  | cons j js ih =>
    rw [selectFrom, List.find?_cons, ← ih, fits]
    cases ha : (bankGet l j).altOnly
    · cases (bankGet l j).cond.holds flags <;> simp
    · simp

theorem mem_showFrom {n start j : Nat} : j ∈ (List.range n).drop start ↔ start ≤ j ∧ j < n := by
  rw [List.range_eq_range', List.drop_range', List.mem_range']
  constructor
  · rintro ⟨i, hi, rfl⟩
    omega
  · intro h
    exact ⟨j - start, by omega, by omega⟩

/-- The entry selected is the first one from the start, within the show, that fits. -/
theorem selectAt_first {l : Vector Entry 128} {flags : Mask8} {start p : Nat} (hp : start ≤ p) (hlen : p < showLength l)
    (hfits : fits l flags p = true) (hno : ∀ j, start ≤ j → j < p → fits l flags j = false) :
    (selectAt l flags start).2 = some p := by
  rw [selectAt, selectFrom_find, List.find?_eq_some_iff_getElem]
  refine ⟨hfits, p - start, by simp; omega, by simp; omega, fun j hj => ?_⟩
  simp [hno (start + j) (by omega) (by omega)]

/-- Where no entry from the start fits, none is selected. -/
theorem selectAt_nothing {l : Vector Entry 128} {flags : Mask8} {start : Nat}
    (hno : ∀ j, start ≤ j → j < showLength l → fits l flags j = false) : (selectAt l flags start).2 = none := by
  rw [selectAt, selectFrom_find, List.find?_eq_none]
  intro j hj
  obtain ⟨h1, h2⟩ := mem_showFrom.mp hj
  simp [hno j h1 h2]

/-- The played member of a principal is its alternate where that is valid and due (R10). -/
theorem playedMember_fst (l : Vector Entry 128) (p : Nat) : (playedMember l p).1 =
    match validAlternate l p with
    | some a => if (bankGet l p).dueAlternate then a else p
    | none => p := by
  unfold playedMember
  cases validAlternate l p with
  | none => rfl
  | some a => exact apply_ite Prod.fst _ _ _

/-! ### Results that stand (R159) -/

theorem changeLast_append (f : SegResult → SegResult) (l : List SegResult) (x : SegResult) :
    changeLast f (l ++ [x]) = l ++ [if x.outcome = .inProgress then f x else x] := by
  induction l with
  | nil => rfl
  | cons y l ih =>
    cases l with
    | nil => rfl
    | cons z l => exact congrArg (y :: ·) ih

/-- The result in progress of an OPEN record is PLAYED as its segment ends. -/
theorem recordPlayed_results {s : State} {l : List SegResult} {x : SegResult} (hopen : s.recorder.status = .opened)
    (hr : s.recorder.record.results = l ++ [x]) (hx : x.outcome = .inProgress) :
    (recordPlayed s).recorder.record.results = l ++ [{ x with outcome := .played }] := by
  show (s.recorder.feed _).record.results = _
  rw [Recorder.feed, if_pos hopen]
  show changeLast _ s.recorder.record.results = _
  rw [hr, changeLast_append, if_pos hx]

/-- The results of one state that are not IN_PROGRESS stand in another. -/
def ResultsKept (s t : State) : Prop := ResultsStand s.recorder.record.results t.recorder.record.results

theorem ResultsKept.of_eq {s t : State} (h : t.recorder.record.results = s.recorder.record.results) : ResultsKept s t :=
  fun _ _ hy _ => h ▸ hy

theorem ResultsKept.of_only {ps : List Part} {s t : State} (h : Only ps s t) (hp : Part.recorder ∉ ps) : ResultsKept s t :=
  (Feeds.of_only h hp).results

theorem ResultsKept.trans {s t u : State} (h : ResultsKept s t) (k : ResultsKept t u) : ResultsKept s u :=
  ResultsStand.trans h k

theorem countAtPoint_results (c : Context) (s : State) : ResultsKept s (countAtPoint c s) := by
  have counted : (countShowing c s).recorder.record.results = s.recorder.record.results := by
    show (s.recorder.feed _).record.results = _
    unfold Recorder.feed
    split <;> rfl
  unfold countAtPoint
  split
  · exact .of_eq counted
  · exact .of_eq rfl

theorem closeShowing_results (cause : EndCause) (n : Nat) (s : State) : ResultsKept s (closeShowing cause n s) := by
  by_cases h : s.recorder.status = .opened
  · let r := closedRecord s.showList cause n (boothNow s) s.recorder.record
    obtain ⟨-, hrec, -⟩ := appendLog_record (condense r cause) (s.withRecorder { s.recorder with status := .closed, record := r })
    have e : (closeShowing cause n s).recorder.record.results = r.results := by
      rw [closeShowing, if_pos h]
      exact congrArg ShowRecord.results hrec
    unfold ResultsKept
    rw [e]
    exact (changeLast_stands _ _).trans (.append _ _)
  · rw [closeShowing_not_opened _ _ _ h]
    exact .of_eq rfl

theorem boundaryGoes_results {old s : State} {f : Bool} {c : Context} (hc : s.seq.ctx = some c) :
    ResultsKept s (boundaryGoes old f s) := by
  obtain ⟨w, hw, he⟩ := boundaryGoes_carried (old := old) (f := f) hc
  have counted : ResultsKept w (if s.seq.state = .playing then countAtPoint c (flipPair c w) else w) := by
    split
    · exact (ResultsKept.of_only (flipPair_only c w) (by decide)).trans (countAtPoint_results c _)
    · exact .of_eq rfl
  rw [he]
  exact (ResultsKept.trans hw.feeds.results counted).trans
    (.of_only ((fireCues_only c _ _ _).trans (formPace_only _)) (by decide))

theorem boundaryEnds_results (old : State) (cause : EndCause) (s : State) : ResultsKept s (boundaryEnds old cause s) := by
  obtain ⟨htail, -, -⟩ := boundaryEnds_tail old cause s
  have idle : ResultsKept s (showingIdle cause (positionKept old s)) :=
    ResultsKept.trans (.of_only (positionKept_only old s) (by decide)) (showingIdle_feeds cause _).results
  exact (idle.trans (closeShowing_results cause _ _)).trans
    (.of_only ((endShowing_closes cause _).trans htail) (by decide))

/-! ### The last unit of a segment -/

/-- What the end of a segment leaves of the record: its result PLAYED, and figures fed after it. -/
theorem boundaryUnit_played {s : State} (h : s.seq.atLastUnit = true) :
    Feeds (recordPlayed (s.withSeq s.seq.timed)) (boundaryUnit s) := by
  rw [boundaryUnit]
  rw [if_pos h]
  exact (Feeds.of_only (raise_only _ _ _ _) (by decide)).trans (textSegmentEnd_feeds _ _)

/-- The result in progress stands PLAYED after the segment's end, whatever is kept of the results. -/
theorem played_after {s t : State} (h : s.seq.atLastUnit = true) (hk : ResultsKept (boundaryUnit s) t)
    {l : List SegResult} {x : SegResult} (hopen : s.recorder.status = .opened)
    (hr : s.recorder.record.results = l ++ [x]) (hx : x.outcome = .inProgress) :
    t.recorder.record.results[l.length]? = some { x with outcome := .played } := by
  have hplayed := recordPlayed_results (s := s.withSeq s.seq.timed) hopen hr hx
  have hall : ResultsKept (recordPlayed (s.withSeq s.seq.timed)) t := ResultsKept.trans (boundaryUnit_played h).results hk
  exact hall _ _ (by rw [hplayed]; simp) nofun

theorem atLastUnit_end {q : Sequencer} {c : Context} (hc : q.ctx = some c) (hs : q.state = .playing)
    (h : q.offset + 1 = c.segment.duration) : q.atLastUnit = true := by
  simp [Sequencer.atLastUnit, hc, hs, h]

/-- With no control pending, the boundary at a segment's end selects the next entry or ends the showing COMPLETE. -/
theorem unitBoundaryTick_last {s : State} {c : Context} (hc : s.seq.ctx = some c) (hlast : s.seq.atLastUnit = true)
    (hp : s.seq.pend = PendingControls.none) :
    unitBoundaryTick s = match boundarySelect c (boundaryUnit (ticked s)) with
      | some v => boundaryGoes (ticked s) true (boundaryControls v)
      | none => boundaryEnds (ticked s) .complete (boundarySkips c (boundaryUnit (ticked s))) := by
  have hstop : (ticked s).seq.pend.stop = false := congrArg PendingControls.stop hp
  have htime : (ticked s).seq.pend.timeout = false := congrArg PendingControls.timeout hp
  have hlast' : (ticked s).seq.atLastUnit = true := hlast
  have hc' : (ticked s).seq.ctx = some c := hc
  show boundaryActs (ticked s) = _
  rw [boundaryActs, handleBoundary, hstop, htime, hlast', hc']
  dsimp only [Bool.false_eq_true, if_false]
  cases boundarySelect c (boundaryUnit (ticked s)) with
  | some v => rfl
  | none => rfl

theorem boundarySelect_some {c : Context} {s : State} {p : Nat}
    (h : (selectAt s.showList s.seq.flags (c.principal + 1)).2 = some p) :
    ∃ v, boundarySelect c s = some v ∧ v.seq = (s.seq.filled (contextFor s p)).begun (contextFor s p) := by
  refine ⟨_, by rw [boundarySelect, h], ?_⟩
  rw [State.withSeq_seq, enterSegment_seq]

theorem boundarySelect_none {c : Context} {s : State}
    (h : (selectAt s.showList s.seq.flags (c.principal + 1)).2 = none) : boundarySelect c s = none := by
  rw [boundarySelect, h]

/-- The Sequencer as the unit that ended leaves it at a segment's end: its ticks in the showing time (R35). -/
theorem boundaryUnit_last {s : State} (hs : s.seq.state = .playing) (hlast : s.seq.atLastUnit = true) :
    (boundaryUnit (ticked s)).seq = { s.seq with
      tickCount := 0
      showingTime := s.seq.showingTime + s.seq.ticksPerUnit } ∧
    (boundaryUnit (ticked s)).showList = s.showList := by
  have hlast' : (ticked s).seq.atLastUnit = true := hlast
  refine ⟨?_, (boundaryUnit_only (ticked s)).eq .showList (by decide)⟩
  rw [boundaryUnit_seq, if_pos hlast']
  exact if_pos (.inr hs)

/-- The Sequencer of a segment begun by R12: HOLD, LEAD with all its lead units, or PLAYING. -/
theorem begun_eq {d : Context} {q : Sequencer} (ho : q.offset = 0) (hl : q.leadRemaining = 0) :
    q.begun d = { q with
      state := if d.holdPending then .hold else if 0 < d.leadUnits then .lead else .playing
      leadRemaining := if d.holdPending then 0 else d.leadUnits } := by
  rw [Sequencer.begun]
  by_cases hh : d.holdPending = true
  · rw [if_pos hh, if_pos hh, if_pos hh, ← hl]
  · rw [if_neg hh, if_neg hh, if_neg hh, leadOrPlay_eq]
    by_cases hu : 0 < d.leadUnits
    · rw [if_pos hu, if_pos hu]
    · have h0 : d.leadUnits = q.leadRemaining := by omega
      rw [if_neg hu, if_neg hu, h0, ← ho]

theorem contextFor_congr {s u : State} (h : u.showList = s.showList) (p : Nat) : contextFor u p = contextFor s p := by
  rw [contextFor, h, contextFor]

/-- The Sequencer as the entry selected is begun, its context filled at offset 0 with its own ticks per unit (R11, R27). -/
def Sequencer.selected (d : Context) (q : Sequencer) : Sequencer :=
  { q with
    tickCount := 0
    showingTime := q.showingTime + q.ticksPerUnit
    ctx := some d
    seg := d.played
    offset := 0
    ticksPerUnit := d.segment.rate.ticks
    state := if d.holdPending then .hold else if 0 < d.leadUnits then .lead else .playing
    leadRemaining := if d.holdPending then 0 else d.leadUnits }

section last
variable {s : State} {c : Context} (hc : s.seq.ctx = some c) (hs : s.seq.state = .playing)
  (hlast : s.seq.atLastUnit = true) (hp : s.seq.pend = PendingControls.none)
include hc hs hlast hp

/-- An entry found at the segment's end is begun. -/
theorem unitBoundaryTick_selects {p : Nat} (hsel : (selectAt s.showList s.seq.flags (c.principal + 1)).2 = some p) :
    ∃ v, unitBoundaryTick s = boundaryGoes (ticked s) true v ∧ ResultsKept (boundaryUnit (ticked s)) v ∧
      v.seq = s.seq.selected (contextFor s p) := by
  obtain ⟨hseq, hshow⟩ := boundaryUnit_last hs hlast
  have hsel' : (selectAt (boundaryUnit (ticked s)).showList (boundaryUnit (ticked s)).seq.flags (c.principal + 1)).2 =
      some p := by
    rw [hshow, hseq]
    exact hsel
  obtain ⟨v, hv, hvseq⟩ := boundarySelect_some hsel'
  have hselected : v.seq = s.seq.selected (contextFor s p) := by
    rw [hvseq, begun_eq rfl rfl, contextFor_congr hshow, hseq]
    rfl
  have hcontrols : boundaryControls v = v := boundaryControls_none (by rw [hselected]; exact hp)
  refine ⟨v, ?_, (boundarySelect_feeds hv).results, hselected⟩
  rw [unitBoundaryTick_last hc hlast hp, hv]
  dsimp only
  rw [hcontrols]

/-- Where no entry is found the showing ends COMPLETE. -/
theorem unitBoundaryTick_completes (hsel : (selectAt s.showList s.seq.flags (c.principal + 1)).2 = none) :
    ∃ v, unitBoundaryTick s = boundaryEnds (ticked s) .complete v ∧ ResultsKept (boundaryUnit (ticked s)) v ∧
      v.recorder.status = s.recorder.status ∧
      v.seq = { s.seq with tickCount := 0, showingTime := s.seq.showingTime + s.seq.ticksPerUnit } := by
  obtain ⟨hseq, hshow⟩ := boundaryUnit_last hs hlast
  have hsel' : (selectAt (boundaryUnit (ticked s)).showList (boundaryUnit (ticked s)).seq.flags (c.principal + 1)).2 =
      none := by
    rw [hshow, hseq]
    exact hsel
  have hskips := boundarySkips_feeds c (boundaryUnit (ticked s))
  refine ⟨_, ?_, hskips.results, hskips.status.trans (boundaryUnit_feeds (ticked s)).status,
    ((boundarySkips_only c _).eq .seq (by decide)).trans hseq⟩
  rw [unitBoundaryTick_last hc hlast hp, boundarySelect_none hsel']

end last

/-- Settles O32, by the entry the selection finds, and by R18 where it finds none. -/
theorem segmentEndSelectsNextOrCompletes : Obligations.segment_end_selects_next_or_completes := by
  intro s c hmain hclock hs hc ho hp
  have hlast := atLastUnit_end hc hs ho
  have honly := unitBoundaryTick_only s
  have hrun := exec_unitBoundary hmain hclock
  have hplayed : ∀ t : State, ResultsKept (boundaryUnit (ticked s)) t → ∀ l x, s.recorder.status = .opened →
      s.recorder.record.results = l ++ [x] → x.outcome = .inProgress →
      t.recorder.record.results[l.length]? = some { x with outcome := .played } := fun t hk l x =>
    played_after (s := ticked s) hlast hk
  refine ⟨fun p hlt hlen hfits hno => ?_, fun hno => ?_⟩
  · have hsel := selectAt_first hlt hlen ((fits_iff _ _ _).mpr hfits) fun j h1 h2 =>
      Bool.eq_false_iff.mpr fun h => hno j h1 h2 ((fits_iff _ _ _).mp h)
    obtain ⟨v, ht, hk, hv⟩ := unitBoundaryTick_selects hc hs hlast hp hsel
    have hctx : v.seq.ctx = some (contextFor s p) := by rw [hv]; rfl
    have hresults := hplayed _ (hk.trans (boundaryGoes_results (old := ticked s) (f := true) hctx))
    obtain ⟨n, pause, resume, fl, -, hseq⟩ := boundaryGoes_seq (old := ticked s) (f := true) hctx
    refine ⟨_, hrun, ?_⟩
    rw [ht] at honly ⊢
    generalize boundaryGoes (ticked s) true v = t at *
    rw [hseq, hv]
    exact ⟨rfl, rfl, rfl, playedMember_fst s.showList p, rfl, rfl, rfl, rfl, hclock, rfl, rfl, rfl, hresults, honly⟩
  · have hsel : (selectAt s.showList s.seq.flags (c.principal + 1)).2 = none :=
      selectAt_nothing fun j h1 h2 => Bool.eq_false_iff.mpr fun h => hno j h1 h2 ((fits_iff _ _ _).mp h)
    obtain ⟨v, ht, hk, hstatus, hv⟩ := unitBoundaryTick_completes hc hs hlast hp hsel
    have hresults := hplayed _ (hk.trans (boundaryEnds_results (ticked s) .complete v))
    have hclosed := boundaryEnds_closed (ticked s) .complete (s := v)
    have hseq := boundaryEnds_seq (ticked s) .complete v
    have hkept : (positionKept (ticked s) v).seq = { s.seq with
        tickCount := 0
        showingTime := s.seq.showingTime + s.seq.ticksPerUnit } := by
      rw [positionKept, State.withSeq_seq, hv]
      rfl
    rw [hstatus] at hclosed
    refine ⟨_, hrun, ?_⟩
    rw [ht] at honly ⊢
    generalize boundaryEnds (ticked s) .complete v = t at *
    rw [hkept] at hseq
    rw [hseq]
    exact ⟨rfl, rfl, rfl, rfl, rfl, rfl, rfl, rfl, hresults, honly, hclosed⟩

end Sys2Proof.Machine
end

section
/-! PROOF. The automation cues of a boundary, by what each group makes of the flags and the lines (R154 to R156), and with
them the flip of a pair and the count of a FEATURE (R19, R32, R163). -/

namespace Sys2Proof.Machine

/-! ### A group's effect on the flags and the lines (R156) -/

/-- What a cue's action makes of the flags and the lines. -/
def actionEffect (a : CueAction) (q : Mask8 × LineController) : Mask8 × LineController :=
  match a with
  | .flag x y z => (changeFlags q.1 x y z, q.2)
  | .line n y => (q.1, { q.2 with outputs := bankSet q.2.outputs n ((bankGet q.2.outputs n).act q.2.inputs y).1 })
  | .mark _ => q
  | .sound _ => q

/-- What a cue makes of them where its anchor is one of those given. -/
def cueEffect (f : Anchor → Bool) (x : AutoCue) (q : Mask8 × LineController) : Mask8 × LineController :=
  if f x.anchor && x.cond.holds q.1 then actionEffect x.action q else q

/-- What a group of cues makes of them, each on the flags as they then stand. -/
def groupEffect (g : Segment) (cues : Vector AutoCue 256) (f : Anchor → Bool) (q : Mask8 × LineController) :
    Mask8 × LineController :=
  (cueRange g).foldl (fun q i => cueEffect f (bankGet cues i) q) q

/-- A group fired where its event came. -/
def groupIf (event : Bool) (g : Segment) (cues : Vector AutoCue 256) (f : Anchor → Bool) (q : Mask8 × LineController) :
    Mask8 × LineController :=
  if event then groupEffect g cues f q else q

/-- The flags and the lines of a state. -/
def flagsAndLines (s : State) : Mask8 × LineController := (s.seq.flags, s.lines)

theorem flagsAndLines_of_only {ps : List Part} {s t : State} (h : Only ps s t) (hs : Part.seq ∉ ps)
    (hl : Part.lines ∉ ps) : flagsAndLines t = flagsAndLines s := by
  rw [flagsAndLines, h.eq .seq hs, h.eq .lines hl, flagsAndLines]

theorem performCue_effect (i : Nat) (a : CueAction) (s : State) :
    flagsAndLines (performCue i a s) = actionEffect a (flagsAndLines s) := by
  cases a with
  | line n y => rfl
  | flag x y z => rfl
  | mark v => exact flagsAndLines_of_only (raise_only .mark v i s) (by decide) (by decide)
  | sound p => exact flagsAndLines_of_only (Only.ite _ (Only.refl [.sound] s) (only_withSound s _)) (by decide) (by decide)

theorem fireCue_effect (f : Anchor → Bool) (s : State) (i : Nat) :
    flagsAndLines (fireCue f s i) = cueEffect f (bankGet s.cues i) (flagsAndLines s) := by
  have hflags : (flagsAndLines s).1 = s.seq.flags := rfl
  rw [fireCue, apply_ite flagsAndLines, performCue_effect, cueEffect, hflags]

theorem fireGroup_effect (g : Segment) (f : Anchor → Bool) (s : State) :
    flagsAndLines (fireGroup g f s) = groupEffect g s.cues f (flagsAndLines s) := by
  have walk : ∀ (l : List Nat) (u : State), u.cues = s.cues → flagsAndLines (l.foldl (fireCue f) u) =
      l.foldl (fun q i => cueEffect f (bankGet s.cues i) q) (flagsAndLines u) := by
    intro l
    induction l with
    | nil => exact fun u _ => rfl
    | cons i l ih =>
      intro u hu
      have hcue : (fireCue f u i).cues = s.cues := ((fireCue_only f u i).eq .cues (by decide)).trans hu
      rw [List.foldl_cons, List.foldl_cons, ih _ hcue, fireCue_effect, hu]
  exact walk _ s rfl

theorem fireIf_effect (b : Bool) (g : Segment) (f : Anchor → Bool) (s : State) :
    flagsAndLines (fireIf b g f s) = groupIf b g s.cues f (flagsAndLines s) := by
  unfold fireIf groupIf
  split
  · exact fireGroup_effect g f s
  · rfl

theorem fireIf_cues (b : Bool) (g : Segment) (f : Anchor → Bool) (s : State) : (fireIf b g f s).cues = s.cues :=
  (fireIf_only b g f s).eq .cues (by decide)

/-- The groups of a boundary that goes on: ON_PAUSE; ON_RESUME then LEAD; the positional cues (R155). -/
theorem fireCues_effect (c : Context) (paused resumed : Bool) (s : State) :
    flagsAndLines (fireCues c paused resumed s) =
      groupIf (s.seq.state == .playing) c.segment s.cues (positional c.segment s.seq.offset)
        (groupIf (s.seq.state == .lead && s.seq.leadRemaining == c.leadUnits) c.segment s.cues (· == .lead)
          (groupIf resumed c.segment s.cues (· == .onResume)
            (groupIf paused c.segment s.cues (· == .onPause) (flagsAndLines s)))) := by
  unfold fireCues
  dsimp only
  rw [fireIf_effect, fireIf_effect, fireIf_effect, fireIf_effect, fireIf_cues, fireIf_cues, fireIf_cues]

/-- The groups of a boundary that ends the showing: ON_STOP then ON_SHOW_END (R155). -/
theorem fireEndCues_effect (g : Segment) (cause : EndCause) (s : State) :
    flagsAndLines (fireEndCues g cause s) = groupEffect g s.cues (· == .onShowEnd)
      (groupIf (cause == .stopped || cause == .cancelled) g s.cues (· == .onStop) (flagsAndLines s)) := by
  unfold fireEndCues
  rw [fireIf_effect, fireIf_effect, fireIf_cues]
  rfl

/-- The positional anchors of the unit at an offset (R33). -/
theorem positional_eq (g : Segment) (o : Nat) : positional g o =
    fun a => a == .start o || (a == .finish (g.duration - o) && decide (o < g.duration)) := by
  funext a
  rw [Bool.eq_iff_iff]
  cases a with
  | start e => simp [positional]
  | finish e =>
    simp [positional]
    omega
  | _ => simp [positional]

/-! ### The groups of each boundary -/

/-- What a boundary that goes on makes of the flags and the lines: nothing but its cues. -/
theorem boundaryGoes_effect {old s : State} {f : Bool} {c : Context} (hc : s.seq.ctx = some c) :
    flagsAndLines (boundaryGoes old f s) =
      groupIf (s.seq.state == .playing) c.segment s.cues (positional c.segment s.seq.offset)
        (groupIf (s.seq.state == .lead && s.seq.leadRemaining == c.leadUnits) c.segment s.cues (· == .lead)
          (groupIf (leftPause old s) c.segment s.cues (· == .onResume)
            (groupIf (enteredPause old s) c.segment s.cues (· == .onPause) (flagsAndLines s)))) := by
  obtain ⟨w, hw, he⟩ := boundaryGoes_carried (old := old) (f := f) hc
  have hafter : Only [.showList, .licences, .recorder, .reports] w
      (if s.seq.state = .playing then countAtPoint c (flipPair c w) else w) :=
    Only.ite _ (((flipPair_only c w).trans (countAtPoint_only c _)).mono (by decide)) (Only.refl _ w)
  rw [he, flagsAndLines_of_only (formPace_only _) (by decide) (by decide), fireCues_effect]
  generalize (if s.seq.state = .playing then countAtPoint c (flipPair c w) else w) = x at hafter ⊢
  have hseq : x.seq = w.seq := hafter.eq .seq (by decide)
  have hcues : x.cues = s.cues := (hafter.eq .cues (by decide)).trans (hw.only.eq .cues (by decide))
  have hlines : x.lines = s.lines := (hafter.eq .lines (by decide)).trans (hw.only.eq .lines (by decide))
  rw [flagsAndLines, hcues, hlines, hseq, show w.seq = _ from hw.seq]
  rfl

theorem unitEnded_flags (q : Sequencer) : q.unitEnded.flags = q.flags := by
  unfold Sequencer.unitEnded
  split
  · rfl
  · split <;> rfl
  all_goals rfl

theorem timed_flags (q : Sequencer) : q.timed.flags = q.flags := by
  unfold Sequencer.timed
  split <;> rfl

theorem boundaryUnit_flagsAndLines (s : State) : flagsAndLines (boundaryUnit s) = flagsAndLines s := by
  have hl : (boundaryUnit s).lines = s.lines := (boundaryUnit_only s).eq .lines (by decide)
  have hf : (boundaryUnit s).seq.flags = s.seq.flags := by
    rw [boundaryUnit_seq]
    split
    · exact timed_flags _
    · exact (unitEnded_flags _).trans (timed_flags _)
  rw [flagsAndLines, hl, hf, flagsAndLines]

/-- What a boundary that ends the showing makes of the flags and the lines: nothing but its cues. -/
theorem boundaryEnds_effect {old s : State} {cause : EndCause} {c : Context} (hc : old.seq.ctx = some c)
    (hcues : s.cues = old.cues) (hleft : flagsAndLines s = flagsAndLines old) :
    flagsAndLines (boundaryEnds old cause s) = groupEffect c.segment old.cues (· == .onShowEnd)
      (groupIf (cause == .stopped || cause == .cancelled) c.segment old.cues (· == .onStop) (flagsAndLines old)) := by
  have honly := endShowing_only cause (positionKept old s)
  have hcues' : (endShowing cause (positionKept old s)).cues = old.cues := (honly.eq .cues (by decide)).trans hcues
  have hleft' : flagsAndLines (endShowing cause (positionKept old s)) = flagsAndLines old := by
    rw [flagsAndLines, endShowing_seq, honly.eq .lines (by decide)]
    exact hleft
  unfold boundaryEnds
  rw [hc]
  dsimp only
  rw [flagsAndLines_of_only (formPace_only _) (by decide) (by decide), fireEndCues_effect, hcues', hleft']

end Sys2Proof.Machine
end

section
/-! PROOF. The flip of a pair, the count of a FEATURE and the reports of MARK cues at a boundary within a segment (R19,
R32, R156, R163). -/

namespace Sys2Proof.Machine

/-! ### The groups that fire in each state (R155) -/

section effect
variable {old s : State} {f : Bool} {c : Context} (hc : s.seq.ctx = some c)
include hc

/-- PLAYING: the cues ON_RESUME where PAUSED was left, then the positional ones. -/
theorem boundaryGoes_effect_playing (hs : s.seq.state = .playing) : flagsAndLines (boundaryGoes old f s) =
    groupEffect c.segment s.cues (positional c.segment s.seq.offset)
      (groupIf (old.seq.state == .paused) c.segment s.cues (· == .onResume) (flagsAndLines s)) := by
  rw [boundaryGoes_effect hc, leftPause, enteredPause, hs]
  cases (old.seq.state == .paused) <;> rfl

/-- LEAD: the cues ON_RESUME where PAUSED was left, then LEAD where all lead units are to run. -/
theorem boundaryGoes_effect_lead (hs : s.seq.state = .lead) : flagsAndLines (boundaryGoes old f s) =
    groupIf (s.seq.leadRemaining == c.leadUnits) c.segment s.cues (· == .lead)
      (groupIf (old.seq.state == .paused) c.segment s.cues (· == .onResume) (flagsAndLines s)) := by
  rw [boundaryGoes_effect hc, leftPause, enteredPause, hs]
  cases (old.seq.state == .paused) <;> rfl

/-- PAUSED, entered at this boundary: the cues ON_PAUSE. -/
theorem boundaryGoes_effect_paused (hs : s.seq.state = .paused) (ho : old.seq.state ≠ .paused) :
    flagsAndLines (boundaryGoes old f s) = groupEffect c.segment s.cues (· == .onPause) (flagsAndLines s) := by
  have hold : (old.seq.state != .paused) = true := by simp [ho]
  rw [boundaryGoes_effect hc, leftPause, enteredPause, hs, hold]
  cases (old.seq.state == .paused) <;> rfl

end effect

/-! ### The flip and the count (R19, R32, R163) -/

theorem Feeds.counted {s t : State} (h : Feeds s t) : t.recorder.record.counted = s.recorder.record.counted ∧
    t.recorder.record.countTime = s.recorder.record.countTime := by
  unfold Feeds Recorder.Fed at h
  rw [h.2]
  exact ⟨rfl, rfl⟩

theorem countable_iff (comp : Id128) (n : Nat) (x : Licence) :
    countable comp n x = true ↔ x.state = .bound ∧ x.composition = comp ∧ x.lastCounted ≠ n := by
  simp [countable, and_assoc]

/-- An entry is counted at the count point of a FEATURE where it is BOUND for its composition and not yet counted. -/
theorem countAtPoint_licence (c : Context) (s : State) {i : Nat} (hi : i < 64) :
    bankGet (countAtPoint c s).licences i =
      if (c.segment.cls = .feature ∧ c.segment.countPoint = some s.seq.offset) ∧
          (bankGet s.licences i).state = .bound ∧ (bankGet s.licences i).composition = c.segment.composition ∧
          (bankGet s.licences i).lastCounted ≠ s.recorder.record.number
      then (bankGet s.licences i).countedIn s.recorder.record.number else bankGet s.licences i := by
  have hshow : bankGet (countShowing c s).licences i =
      if countable c.segment.composition s.recorder.record.number (bankGet s.licences i) = true then
        (bankGet s.licences i).countedIn s.recorder.record.number
      else bankGet s.licences i := bankGet_map _ s.licences i hi
  unfold countAtPoint
  by_cases h : c.segment.cls = .feature ∧ c.segment.countPoint = some s.seq.offset
  · rw [if_pos h, hshow]
    exact if_congr ((countable_iff _ _ _).trans (and_iff_right h).symm) rfl rfl
  · rw [if_neg h, if_neg fun e => h e.1]

/-- An OPEN record is counted there too, its count time the first count's (R163). -/
theorem countAtPoint_record (c : Context) {s : State} (hopen : s.recorder.status = .opened) :
    let here := c.segment.cls = .feature ∧ c.segment.countPoint = some s.seq.offset
    (countAtPoint c s).recorder.record.counted = (s.recorder.record.counted || decide here) ∧
      (countAtPoint c s).recorder.record.countTime =
        if here ∧ s.recorder.record.counted = false then some (boothNow s) else s.recorder.record.countTime := by
  intro here
  have hshow : (countShowing c s).recorder.record.counted = true ∧ (countShowing c s).recorder.record.countTime =
      if s.recorder.record.counted then s.recorder.record.countTime else some (boothNow s) := by
    have e : ∀ f : ShowRecord → ShowRecord, (s.recorder.feed f).record = f s.recorder.record := fun f => by
      rw [Recorder.feed, if_pos hopen]
    exact ⟨congrArg ShowRecord.counted (e _), congrArg ShowRecord.countTime (e _)⟩
  unfold countAtPoint
  by_cases h : here
  · obtain ⟨h1, h2⟩ := hshow
    rw [if_pos h, h1, h2]
    cases s.recorder.record.counted <;> simp [h]
  · rw [if_neg h]
    simp [h]

/-! ### MARK cues (R156, R189) -/

/-- Where no report was lost, one raised under the mask stands in the queue. -/
theorem raised_stands {s u t : State} {k : ReportKind} {a b : Nat} (h : Adds (fun _ => True) s u)
    (h' : Adds (fun _ => True) (raise k a b u) t) (hm : s.reports.mask.getLsbD k.code = true)
    (hl : s.reports.lost < top32) (he : t.reports.lost = s.reports.lost) :
    ∃ x ∈ t.reports.queue, x.kind = k ∧ x.detail1 = a ∧ x.detail2 = b := by
  obtain ⟨n, hn⟩ := h
  obtain ⟨m, hm'⟩ := h'
  obtain ⟨hlow, hhigh⟩ := hn.rises (Nat.le_of_lt hl)
  let r := stamped k (showingNow u) a b u
  have hr : (raise k a b u).reports = u.reports.offer r := rfl
  have hmask : u.reports.mask.getLsbD r.kind.code = true := hn.mask ▸ hm
  by_cases hq : u.reports.queue.length < Config.reportPlaces
  · obtain ⟨new, hnew, -, -⟩ := hm'.queue
    rw [hr, offer_joins hmask hq] at hnew
    exact ⟨r, by rw [hnew]; simp, rfl, rfl, rfl⟩
  · have hlost : (raise k a b u).reports.lost = addTo top32 u.reports.lost 1 := by
      rw [hr, ReportUnit.offer, hmask, if_neg (by decide), if_pos (Nat.not_lt.mp hq)]
    obtain ⟨hlow', -⟩ := hm'.rises (by rw [hlost]; exact Nat.min_le_left _ _)
    rw [hlost, he, addTo] at hlow'
    omega

/-- A MARK cue of a group raises its report, unless one was lost. -/
theorem fireGroup_marks {g : Segment} {f : Anchor → Bool} {s t : State} {i v n : Nat} {a : Anchor}
    (hi : i ∈ cueRange g) (hcue : bankGet s.cues i = ⟨a, .always, .mark v, n⟩) (ha : f a = true)
    {old : State} (h : Adds (fun _ => True) old s) (h' : Adds (fun _ => True) (fireGroup g f s) t)
    (hm : old.reports.mask.getLsbD 8 = true) (hl : old.reports.lost < top32) (he : t.reports.lost = old.reports.lost) :
    ∃ x ∈ t.reports.queue, x.kind = .mark ∧ x.detail1 = v ∧ x.detail2 = i := by
  have walk : ∀ (l : List Nat) (u : State), Adds (fun _ => True) u (l.foldl (fireCue f) u) ∧
      (l.foldl (fireCue f) u).cues = u.cues := fun l u =>
    ⟨Adds.foldl _ (fun u i => Adds.ite _ (performCue_adds (fun _ _ => trivial) i _ u) (.refl u)) l u,
      (Only.foldl _ (fireCue_only f) l u).eq .cues (by decide)⟩
  obtain ⟨before, after, hsplit⟩ := List.append_of_mem hi
  obtain ⟨hbefore, hcues⟩ := walk before s
  have hfire : fireCue f (before.foldl (fireCue f) s) i = raise .mark v i (before.foldl (fireCue f) s) := by
    rw [fireCue, hcues, hcue]
    dsimp only
    rw [ha]
    rfl
  have hgroup : fireGroup g f s = after.foldl (fireCue f) (raise .mark v i (before.foldl (fireCue f) s)) := by
    rw [fireGroup, hsplit, List.foldl_append, List.foldl_cons, hfire]
  rw [hgroup] at h'
  exact raised_stands (h.trans hbefore) ((walk after _).1.trans h') hm hl he

end Sys2Proof.Machine
end

section
/-! PROOF. O35: the pair's flip, the count and the automation cues of a boundary (R19, R32, R154 to R156, R163). -/

namespace Sys2Proof.Machine

/-! ### A boundary within a segment -/

/-- A unit that begins in PLAYING fires its positional cues alone, where PAUSED was neither entered nor left. -/
theorem fireCues_playing {c : Context} {s : State} (hs : s.seq.state = .playing) :
    fireCues c false false s = fireGroup c.segment (positional c.segment s.seq.offset) s := by
  unfold fireCues
  rw [hs]
  rfl

/-- What the outputs of the unit that begins leave of state s before the flip and the count, at a boundary within a
segment. -/
structure Output (s w : State) : Prop where
  only : Only carriedParts s w
  feeds : Feeds s w
  adds : Adds (fun _ => True) s w
  offset : w.seq.offset = s.seq.offset + 1
  flags : w.seq.flags = s.seq.flags

/-- The boundary's end: the pair flipped, the showing counted, the positional cues of the unit fired, and PACE. -/
def outputEnd (c : Context) (offset : Nat) (w : State) : State :=
  formPace (fireGroup c.segment (positional c.segment offset) (countAtPoint c (flipPair c w)))

theorem unitBoundaryTick_output {s : State} {c : Context} (hc : s.seq.ctx = some c) (hs : s.seq.state = .playing)
    (ho : s.seq.offset + 1 < c.segment.duration) (hp : s.seq.pend = PendingControls.none) :
    ∃ w, Output s w ∧ unitBoundaryTick s = outputEnd c (s.seq.offset + 1) w := by
  obtain ⟨q, hq⟩ : ∃ q : Sequencer, q = { s.seq with
      tickCount := 0
      showingTime := s.seq.showingTime + s.seq.ticksPerUnit
      offset := s.seq.offset + 1 } := ⟨_, rfl⟩
  have hstate : q.state = .playing := by rw [hq]; exact hs
  have hoff : q.offset = s.seq.offset + 1 := by rw [hq]
  have hflags : q.flags = s.seq.flags := by rw [hq]
  have ht := unitBoundaryTick_within hc hs ho hp
  rw [← hq] at ht
  obtain ⟨w, hw, he⟩ := boundaryGoes_carried (old := ticked s) (f := false) (s := s.withSeq q) (c := c) (by rw [hq]; exact hc)
  obtain ⟨hwstate, hwoff, hwflags⟩ : w.seq.state = .playing ∧ w.seq.offset = s.seq.offset + 1 ∧
      w.seq.flags = s.seq.flags := by
    rw [show w.seq = _ from hw.seq]
    exact ⟨hstate, hoff, hflags⟩
  have hsame : (countAtPoint c (flipPair c w)).seq = w.seq :=
    ((flipPair_only c w).trans (countAtPoint_only c _)).eq .seq (by decide)
  have hentered : enteredPause (ticked s) (s.withSeq q) = false := by
    rw [enteredPause, State.withSeq_seq, hstate]
    rfl
  have hleft : leftPause (ticked s) (s.withSeq q) = false := by
    rw [leftPause, show (ticked s).seq.state = .playing from hs]
    rfl
  have hset : Only [.seq] s (s.withSeq q) := only_withSeq s q
  refine ⟨w, ⟨(hset.mono (by decide)).comp hw.only, (Feeds.of_only hset (by decide)).trans hw.feeds,
    (Adds.of_only hset (by decide)).trans hw.adds, hwoff, hwflags⟩, ?_⟩
  rw [ht, he, hentered, hleft, if_pos (show (s.withSeq q).seq.state = .playing from hstate),
    fireCues_playing (by rw [hsame]; exact hwstate), hsame, hwoff, outputEnd]

/-- What the cues and PACE leave: the show list, the licences and the record. -/
theorem outputEnd_only (c : Context) (o : Nat) (w : State) :
    Only [.lines, .seq, .reports, .sound, .lane] (countAtPoint c (flipPair c w)) (outputEnd c o w) :=
  ((Only.foldl _ (fireCue_only _) _ _).trans (formPace_only _)).mono (by decide)

theorem countAtPoint_adds (c : Context) (s : State) : Adds (fun _ => True) s (countAtPoint c s) := by
  have fed : ∀ (l : Vector Licence 64) (f : ShowRecord → ShowRecord),
      Adds (fun _ => True) s (feedRecord f (s.withLicences l)) := fun l f =>
    .of_only ((only_withLicences s l).trans (feedRecord_only f _)) (by decide)
  exact Adds.ite _ ((fed _ _).trans (raise_adds (fun _ _ => trivial) .counted (by decide) _ _ _)) (.refl s)

theorem flipPair_showList (c : Context) (s : State) : (flipPair c s).showList =
    if c.other.isSome ∧ s.seq.offset + 1 = c.segment.duration then
      bankSet s.showList c.principal (bankGet s.showList c.principal).flipped
    else s.showList := apply_ite State.showList _ _ _

section output
variable {s w : State} (h : Output s w) (c : Context)
include h

theorem Output.cues : (countAtPoint c (flipPair c w)).cues = s.cues :=
  (((flipPair_only c w).trans (countAtPoint_only c _)).eq .cues (by decide)).trans (h.only.eq .cues (by decide))

/-- What the boundary makes of the flags and the lines: its positional cues alone. -/
theorem Output.effect (o : Nat) : flagsAndLines (outputEnd c o w) =
    groupEffect c.segment s.cues (positional c.segment o) (flagsAndLines s) := by
  have hboth := (flipPair_only c w).trans (countAtPoint_only c _)
  have hw : flagsAndLines w = flagsAndLines s := by
    rw [flagsAndLines, h.flags, h.only.eq .lines (by decide), flagsAndLines]
  rw [outputEnd, flagsAndLines_of_only (formPace_only _) (by decide) (by decide), fireGroup_effect, h.cues,
    flagsAndLines_of_only hboth (by decide) (by decide), hw]

/-- The pair flips where the last unit begins, and nowhere else (R19). -/
theorem Output.showList (o : Nat) : (outputEnd c o w).showList =
    if c.other.isSome ∧ s.seq.offset + 2 = c.segment.duration then
      bankSet s.showList c.principal (bankGet s.showList c.principal).flipped
    else s.showList := by
  rw [(outputEnd_only c o w).eq .showList (by decide), (countAtPoint_only c _).eq .showList (by decide), flipPair_showList,
    h.offset, h.only.eq .showList (by decide)]

/-- What the count finds: the licences as they stood, and the record fed with figures alone. -/
theorem Output.flipped : (flipPair c w).seq.offset = s.seq.offset + 1 ∧ (flipPair c w).licences = s.licences ∧
    (flipPair c w).clock = s.clock ∧ Feeds s (flipPair c w) := by
  have hflip := flipPair_only c w
  exact ⟨(congrArg Sequencer.offset (hflip.eq .seq (by decide))).trans h.offset,
    (hflip.eq .licences (by decide)).trans (h.only.eq .licences (by decide)),
    (hflip.eq .clock (by decide)).trans (h.only.eq .clock (by decide)), h.feeds.trans (.of_only hflip (by decide))⟩

/-- Each BOUND entry of the composition not yet counted is counted at the count point of a FEATURE (R32, R163). -/
theorem Output.licence (o : Nat) {i : Nat} (hi : i < 64) : bankGet (outputEnd c o w).licences i =
    if (c.segment.cls = .feature ∧ c.segment.countPoint = some (s.seq.offset + 1)) ∧
        (bankGet s.licences i).state = .bound ∧ (bankGet s.licences i).composition = c.segment.composition ∧
        (bankGet s.licences i).lastCounted ≠ s.recorder.record.number
    then (bankGet s.licences i).countedIn s.recorder.record.number else bankGet s.licences i := by
  obtain ⟨hoff, hlic, -, hfeeds⟩ := h.flipped c
  rw [(outputEnd_only c o w).eq .licences (by decide), countAtPoint_licence c _ hi, hlic, hoff, hfeeds.number]

/-- An OPEN record is counted there (R163). -/
theorem Output.record (o : Nat) (hopen : s.recorder.status = .opened) :
    let here := c.segment.cls = .feature ∧ c.segment.countPoint = some (s.seq.offset + 1)
    (outputEnd c o w).recorder.record.counted = (s.recorder.record.counted || decide here) ∧
      (outputEnd c o w).recorder.record.countTime =
        if here ∧ s.recorder.record.counted = false then some (boothNow s) else s.recorder.record.countTime := by
  intro here
  obtain ⟨hoff, -, hclock, hfeeds⟩ := h.flipped c
  obtain ⟨hcounted, htime⟩ := hfeeds.counted
  obtain ⟨h1, h2⟩ := countAtPoint_record c (s := flipPair c w) (hfeeds.status.trans hopen)
  have hnow : boothNow (flipPair c w) = boothNow s := by rw [boothNow, hclock, boothNow]
  rw [(outputEnd_only c o w).eq .recorder (by decide), h1, h2, hnow, hoff, hcounted, htime]
  exact ⟨rfl, rfl⟩

/-- A MARK cue at the unit that begins raises its report, unless one was lost (R156, R189). -/
theorem Output.marks {o i v k : Nat} (hi : i ∈ cueRange c.segment)
    (hcue : bankGet s.cues i = ⟨.start o, .always, .mark v, k⟩) (hm : s.reports.mask.getLsbD 8 = true)
    (hl : s.reports.lost < top32) (he : (outputEnd c o w).reports.lost = s.reports.lost) :
    ∃ x ∈ (outputEnd c o w).reports.queue, x.kind = .mark ∧ x.detail1 = v ∧ x.detail2 = i := by
  have hstart : positional c.segment o (.start o) = true := by simp [positional]
  have hbefore : Adds (fun _ => True) s (countAtPoint c (flipPair c w)) :=
    h.adds.trans ((Adds.of_only (flipPair_only c w) (by decide)).trans (countAtPoint_adds c _))
  exact fireGroup_marks (f := positional c.segment o) hi ((congrArg (bankGet · i) (h.cues c)).trans hcue) hstart hbefore
    (.of_only (formPace_only _) (by decide)) hm hl he

end output

/-! ### The groups of each boundary -/

/-- The groups' anchors of a unit that begins, as R33 gives them. -/
theorem groupEffect_unit (g : Segment) (cues : Vector AutoCue 256) (o : Nat) (q : Mask8 × LineController) :
    groupEffect g cues (positional g o) q = groupEffect g cues
      (fun a => a == .start o || (a == .finish (g.duration - o) && decide (o < g.duration))) q := by
  rw [positional_eq]

/-- A stop or a timeout: ON_STOP where stopped or cancelled, then ON_SHOW_END. -/
theorem unitBoundaryTick_ends_effect {s : State} {c : Context} (hc : s.seq.ctx = some c)
    (h : s.seq.pend.stop = true ∨ s.seq.pend.timeout = true) :
    flagsAndLines (unitBoundaryTick s) = groupEffect c.segment s.cues (· == .onShowEnd)
      (groupIf s.seq.pend.stop c.segment s.cues (· == .onStop) (flagsAndLines s)) := by
  have hcues : (boundaryUnit (ticked s)).cues = (ticked s).cues := (boundaryUnit_only _).eq .cues (by decide)
  rw [unitBoundaryTick_ends h, boundaryEnds_effect (old := ticked s) hc hcues (boundaryUnit_flagsAndLines _)]
  cases s.seq.pend.stop with
  | false => rfl
  | true =>
    by_cases hs : s.seq.state = .cued
    · rw [if_pos rfl, if_pos hs]
      rfl
    · rw [if_pos rfl, if_neg hs]
      rfl

/-- Settles O35, by what the outputs leave before the flip and the count, and what each group of cues makes of the flags
and the lines. -/
theorem boundaryFlipsCountsAndFiresCues : Obligations.boundary_flips_counts_and_fires_cues := by
  intro s c hmain hclock hc g range fire unitAt start left
  have hrun := exec_unitBoundary hmain hclock
  have unit : ∀ o q, groupEffect g s.cues (positional g o) q = fire (unitAt o) q := fun o q => groupEffect_unit g s.cues o q
  have kept : ∀ v : State, Only [.seq, .recorder] s v → v.seq.flags = s.seq.flags → v.cues = s.cues ∧ flagsAndLines v = start :=
    fun v hv hf => ⟨hv.eq .cues (by decide), by rw [flagsAndLines, hf, hv.eq .lines (by decide)]⟩
  refine ⟨fun hs ho hp => ?_, fun cause hs ho hp => ?_, fun hs hp => ⟨fun hfrom => ?_, fun hfrom => ?_⟩, fun hs hp => ?_,
    fun hstop => ?_, fun hstop htime => ?_⟩
  · obtain ⟨w, hw, ht⟩ := unitBoundaryTick_output hc hs ho hp
    refine ⟨_, hrun, ?_⟩
    rw [ht]
    exact ⟨(hw.effect c _).trans (unit _ start), hw.showList c _, ⟨fun i hi => hw.licence c _ hi, hw.record c _⟩,
      fun i v k hi hcue hm hl he => hw.marks c hi hcue hm hl he⟩
  · obtain ⟨v, ht, hv, hvseq⟩ := unitBoundaryTick_pause hc hs ho hp
    obtain ⟨hcues, hleft⟩ := kept v hv (by rw [hvseq])
    refine ⟨_, hrun, ?_⟩
    show flagsAndLines (unitBoundaryTick s) = _
    rw [ht, boundaryGoes_effect_paused (c := c) (by rw [hvseq]; exact hc) (by rw [hvseq])
      (by rw [show (ticked s).seq.state = .playing from hs]; nofun), hcues, hleft]
    rfl
  · obtain ⟨v, ht, hv, hvseq⟩ := unitBoundaryTick_resume hs hp
    obtain ⟨hcues, hleft⟩ := kept v hv (by rw [hvseq]; rfl)
    refine ⟨_, hrun, ?_⟩
    show flagsAndLines (unitBoundaryTick s) = _
    have hstate : v.seq.state = .playing := by
      rw [hvseq]
      exact congrArg (Option.getD · .playing) hfrom
    have hoff : v.seq.offset = s.seq.offset := by rw [hvseq]; rfl
    rw [ht, boundaryGoes_effect_playing (c := c) (by rw [hvseq]; exact hc) hstate, hcues, hleft, hoff, unit,
      show (ticked s).seq.state = .paused from hs]
    rfl
  · obtain ⟨v, ht, hv, hvseq⟩ := unitBoundaryTick_resume hs hp
    obtain ⟨hcues, hleft⟩ := kept v hv (by rw [hvseq]; rfl)
    refine ⟨_, hrun, ?_⟩
    show flagsAndLines (unitBoundaryTick s) = _
    have hstate : v.seq.state = .lead := by
      rw [hvseq]
      exact congrArg (Option.getD · .playing) hfrom
    have hrem : v.seq.leadRemaining = s.seq.leadRemaining := by rw [hvseq]; rfl
    rw [ht, boundaryGoes_effect_lead (c := c) (by rw [hvseq]; exact hc) hstate, hcues, hleft, hrem,
      show (ticked s).seq.state = .paused from hs]
    by_cases h : s.seq.leadRemaining = c.leadUnits
    · rw [if_pos h, beq_iff_eq.mpr h]
      rfl
    · rw [if_neg h, beq_eq_false_iff_ne.mpr h]
      rfl
  · obtain ⟨v, ht, hv, hvseq⟩ := unitBoundaryTick_go hc hs hp
    have hold : ((ticked s).seq.state == .paused) = false := by
      have e : (ticked s).seq.state = s.seq.state := rfl
      rw [e]
      rcases hs with h | h <;> rw [h] <;> rfl
    rw [leadOrPlay_eq] at hvseq
    refine ⟨_, hrun, ?_⟩
    show flagsAndLines (unitBoundaryTick s) = _
    by_cases h : 0 < c.leadUnits
    · rw [if_pos h] at hvseq
      obtain ⟨hcues, hleft⟩ := kept v hv (by rw [hvseq])
      rw [if_pos h, ht, boundaryGoes_effect_lead (c := { c with holdPending := false }) (by rw [hvseq]) (by rw [hvseq]), hcues,
        hleft, hold, show v.seq.leadRemaining = c.leadUnits by rw [hvseq], beq_self_eq_true]
      rfl
    · rw [if_neg h] at hvseq
      obtain ⟨hcues, hleft⟩ := kept v hv (by rw [hvseq])
      rw [if_neg h, ht, boundaryGoes_effect_playing (c := { c with holdPending := false }) (by rw [hvseq]) (by rw [hvseq]), hcues,
        hleft, hold, show v.seq.offset = 0 by rw [hvseq]]
      exact unit 0 start
  · refine ⟨_, hrun, ?_⟩
    show flagsAndLines (unitBoundaryTick s) = _
    rw [unitBoundaryTick_ends_effect hc (.inl hstop), hstop]
    rfl
  · refine ⟨_, hrun, ?_⟩
    show flagsAndLines (unitBoundaryTick s) = _
    rw [unitBoundaryTick_ends_effect hc (.inr htime), hstop]
    rfl

end Sys2Proof.Machine
end
